-- ==== Sys2Proof/Word.lean ====
section
/-! DEFINITION. The words of the block (10_state.md R20, 00_scope.md R7, R9): 32-bit registers, bytes of the
shared record, pin indices, and the two shapes in which registers of one kind stand together. -/

namespace Sys2Proof

/-- A register value: 32 bits, bit 0 the least significant (R7 `REGW`, R9). -/
abbrev Word := BitVec 32

/-- A byte of the shared record seen as bytes (R76). -/
abbrev Byte := BitVec 8

/-- A pin index, 0 to 53 (R1, R70). The type is bounded, so that the decoder cannot be given a pin outside
its domain (R144). -/
abbrev Pin := Fin 54

/-- A pair of registers that holds one bit per pin (00_scope.md glossary "Bank"; R124): register 0 for pins 0 to
31, register 1 for pins 32 to 53 in bits 0 to 21. -/
structure Bank where
  r0 : Word
  r1 : Word
deriving DecidableEq, Repr, Inhabited

/-- The six function-select registers (R23). -/
structure FselRegs where
  f0 : Word
  f1 : Word
  f2 : Word
  f3 : Word
  f4 : Word
  f5 : Word
deriving DecidableEq, Repr, Inhabited

/-- Both registers of a bank at zero (R48). -/
def Bank.zero : Bank := ⟨0, 0⟩

/-- All six function-select registers at zero (R48). -/
def FselRegs.zero : FselRegs := ⟨0, 0, 0, 0, 0, 0⟩

end Sys2Proof
end

