-- ==== Sys2Proof/Config.lean ====
section
/-! DEFINITION. The parameters of the block: the fixed ones of 00_scope.md R7 as constants, the open ones of R8
either as constants (where 92_eei_decisions.md decides them), as fields of `Params` (where the model takes them as
an argument), or as opaque constants (where the spec gives no value at all), and the model's free values. -/

namespace Sys2Proof.Config

/-- Pins, indices 0 to 53 (R7). -/
def NPINS : Nat := 54

/-- Width in bits of every register (R7). -/
def REGW : Nat := 32

/-- Number of function-select registers (R7). -/
def NFSEL : Nat := 6

/-- Bits per pin in a function-select register (R7). -/
def FSEL_FIELD_W : Nat := 3

/-- Pins per function-select register; the sixth holds 4 (R7). -/
def PINS_PER_FSEL : Nat := 10

/-- Registers per bank (R7). -/
def NBANK : Nat := 2

/-- Function code of Input (R7, R126). -/
def FN_INPUT : BitVec 3 := 0

/-- Function code of Output (R7, R126). -/
def FN_OUTPUT : BitVec 3 := 1

/-- Number of 32-bit fields of the shared record (R7, R76). -/
def SHM_NFIELDS : Nat := 10

/-- Size of the shared record in bytes (R76). -/
def SHM_BYTES : Nat := 40

/-- Narrow external index 0 to 7 to native pin (R7, R46, R128). No rule of the device reads it. -/
def PINMAP : List Pin := [17, 18, 21, 22, 23, 24, 25, 4]

/-- Size in bytes of the offset window (R71; decision D6 of 92_eei_decisions.md, notes/assumptions/8.md). -/
def MMIO_WINDOW : Nat := 0x100

/-- The access widths in bytes the bus may present; all are ignored (R78; D5). -/
def BUS_WIDTHS : List Nat := [1, 2, 4, 8]

/-- Byte order of a field of the shared record when it is viewed as bytes (R77 `SHM_ENDIAN`). -/
inductive Endian where
  | little
  | big
deriving DecidableEq, Repr, Inhabited

/-- The open parameters of R8 that the model takes as an argument. They stand in `State`, where no operation
changes them, so that a statement about every state holds for every value of them. -/
structure Params where
  /-- `P_TIE_CLEARS_CLR`: whether the SET branch of the deriver also clears the CLR bit of the pin (R151, D9). -/
  tieClearsClr : Bool
  /-- `P_POST_ON_BAD_WRITE`: whether a bad-offset write still runs the derive pass and the push (R247, D7). -/
  postOnBadWrite : Bool
  /-- `SHM_ENDIAN` (R77, D14). -/
  shmEndian : Endian
deriving DecidableEq, Repr, Inhabited

/-- The values R8 gives as defaults. `SHM_ENDIAN` is "host-native" there; little is the model's choice
(DESIGN CHOICE, notes/assumptions/4.md). -/
def defaultParams : Params :=
  { tieClearsClr := true, postOnBadWrite := true, shmEndian := .little }

/-- `FN_NAME`: the names of function codes 2 to 7, which the spec does not give and no rule uses (R8, R126, D2). -/
opaque FN_NAME : BitVec 3 → String

/-- `SHM_KEY_PATH`: not given, used by no rule (R8, D24). -/
opaque SHM_KEY_PATH : String

/-- `SHM_PROJ_ID`: not given, used by no rule (R8, D24). -/
opaque SHM_PROJ_ID : Nat

/-- FREE VALUE: what the registers hold between `INIT` and the first `RESET`, which the spec leaves unspecified
(R49, R301). `createdReg draw k` is the word in the k-th register of the file created by the `INIT` that took the
free-value counter's value `draw` (notes/assumptions/3.md). -/
opaque createdReg : Nat → Nat → Word

/-- FREE VALUE: what the write counter holds between `INIT` and the first `RESET` (R49; notes/assumptions/3.md). -/
opaque createdCount : Nat → Nat

end Sys2Proof.Config
end

