-- ==== Sys2Proof/Syntax.lean ====
section
/-! DEFINITION. The events that reach the block (30_encoding.md R110) and the operations of the table: one constructor of
`Instr` for each of the 97 rows of opcode_table.json. Operands that the block ignores (`width`, R78, R122) are carried as
presented. -/

namespace Sys2Proof

/-- The 29 values of a snapshot, one per bus-addressable register (`SNAP_FIELDS`, R50). -/
structure SnapFields where
  fsel : FselRegs
  gpset : Bank
  gpclr : Bank
  level : Bank
  eds : Bank
  ren : Bank
  fen : Bank
  hen : Bank
  len : Bank
  aren : Bank
  afen : Bank
  pud : Word
  pudclk : Bank
deriving DecidableEq, Repr, Inhabited

/-- Ten words for the ten fields of the shared record, in its own shape (R42, R76): a value of `SHM_INIT`. -/
structure ShmWords where
  fsel : FselRegs
  level : Bank
  outstate : Bank
deriving DecidableEq, Repr, Inhabited

/-- What the environment answers to the attach of `INIT` (R301): the segment existed and is kept as found, it was created
holding `SHM_INIT`, or the attach failed. -/
inductive Attach where
  | found
  | created (contents : ShmWords)
  | failed
deriving DecidableEq, Repr

/-- An event as the ports present it, before decode (R110). -/
inductive Event where
  /-- A bus read (format BR, R113). -/
  | busRead (offset width : Nat)
  /-- A bus write (format BW, R114). -/
  | busWrite (offset width value : Nat)
  /-- A line event (format LN, R115); `level` is an integer (R129) and `pin` is not yet checked against 0..53 (R262). -/
  | line (pin : Nat) (level : Int)
  /-- Control events (format CT, R116). -/
  | reset
  | init (attach : Attach)
  | snapSave
  | snapLoad (fields : List Word)
  /-- A selector of none of the four formats. No port presents it; it is what `unpack` makes of such a number. -/
  | unlisted (sel : Nat)
deriving DecidableEq, Repr

/-- The operations of the block, one constructor per row of opcode_table.json. -/
inductive Instr where
  /-- `RD.FSEL0` (R171). -/
  | rdFsel0 (width : Nat)
  /-- `RD.FSEL1` (R172). -/
  | rdFsel1 (width : Nat)
  /-- `RD.FSEL2` (R173). -/
  | rdFsel2 (width : Nat)
  /-- `RD.FSEL3` (R174). -/
  | rdFsel3 (width : Nat)
  /-- `RD.FSEL4` (R175). -/
  | rdFsel4 (width : Nat)
  /-- `RD.FSEL5` (R176). -/
  | rdFsel5 (width : Nat)
  /-- `RD.LEVEL0` (R177). -/
  | rdLevel0 (width : Nat)
  /-- `RD.LEVEL1` (R178). -/
  | rdLevel1 (width : Nat)
  /-- `RD.EDS0` (R179). -/
  | rdEds0 (width : Nat)
  /-- `RD.EDS1` (R180). -/
  | rdEds1 (width : Nat)
  /-- `RD.REN0` (R181). -/
  | rdRen0 (width : Nat)
  /-- `RD.REN1` (R182). -/
  | rdRen1 (width : Nat)
  /-- `RD.FEN0` (R183). -/
  | rdFen0 (width : Nat)
  /-- `RD.FEN1` (R184). -/
  | rdFen1 (width : Nat)
  /-- `RD.HEN0` (R185). -/
  | rdHen0 (width : Nat)
  /-- `RD.HEN1` (R186). -/
  | rdHen1 (width : Nat)
  /-- `RD.LEN0` (R187). -/
  | rdLen0 (width : Nat)
  /-- `RD.LEN1` (R188). -/
  | rdLen1 (width : Nat)
  /-- `RD.AREN0` (R189). -/
  | rdAren0 (width : Nat)
  /-- `RD.AREN1` (R190). -/
  | rdAren1 (width : Nat)
  /-- `RD.AFEN0` (R191). -/
  | rdAfen0 (width : Nat)
  /-- `RD.AFEN1` (R192). -/
  | rdAfen1 (width : Nat)
  /-- `RD.PUD` (R193). -/
  | rdPud (width : Nat)
  /-- `RD.PUDCLK0` (R194). -/
  | rdPudclk0 (width : Nat)
  /-- `RD.PUDCLK1` (R195). -/
  | rdPudclk1 (width : Nat)
  /-- `RD.SET0` (R197). -/
  | rdSet0 (width : Nat)
  /-- `RD.SET1` (R198). -/
  | rdSet1 (width : Nat)
  /-- `RD.CLR0` (R199). -/
  | rdClr0 (width : Nat)
  /-- `RD.CLR1` (R200). -/
  | rdClr1 (width : Nat)
  /-- `RD.RSVD_18` (R201). -/
  | rdRsvd18 (width : Nat)
  /-- `RD.RSVD_24` (R201). -/
  | rdRsvd24 (width : Nat)
  /-- `RD.RSVD_30` (R201). -/
  | rdRsvd30 (width : Nat)
  /-- `RD.RSVD_3C` (R201). -/
  | rdRsvd3c (width : Nat)
  /-- `RD.RSVD_48` (R201). -/
  | rdRsvd48 (width : Nat)
  /-- `RD.RSVD_54` (R201). -/
  | rdRsvd54 (width : Nat)
  /-- `RD.RSVD_60` (R201). -/
  | rdRsvd60 (width : Nat)
  /-- `RD.RSVD_6C` (R201). -/
  | rdRsvd6c (width : Nat)
  /-- `RD.RSVD_78` (R201). -/
  | rdRsvd78 (width : Nat)
  /-- `RD.RSVD_84` (R201). -/
  | rdRsvd84 (width : Nat)
  /-- `RD.RSVD_90` (R201). -/
  | rdRsvd90 (width : Nat)
  /-- `RD.RSVD_A0` (R201). -/
  | rdRsvda0 (width : Nat)
  /-- `RD.RSVD_B0` (R201). -/
  | rdRsvdb0 (width : Nat)
  /-- `RD.UNDEF` (R202). -/
  | rdUndef (offset width : Nat)
  /-- `RD.BAD` (R196). -/
  | rdBad (offset width : Nat)
  /-- `WR.FSEL0` (R211). -/
  | wrFsel0 (width value : Nat)
  /-- `WR.FSEL1` (R212). -/
  | wrFsel1 (width value : Nat)
  /-- `WR.FSEL2` (R213). -/
  | wrFsel2 (width value : Nat)
  /-- `WR.FSEL3` (R214). -/
  | wrFsel3 (width value : Nat)
  /-- `WR.FSEL4` (R215). -/
  | wrFsel4 (width value : Nat)
  /-- `WR.FSEL5` (R216). -/
  | wrFsel5 (width value : Nat)
  /-- `WR.SET0` (R217). -/
  | wrSet0 (width value : Nat)
  /-- `WR.SET1` (R218). -/
  | wrSet1 (width value : Nat)
  /-- `WR.CLR0` (R219). -/
  | wrClr0 (width value : Nat)
  /-- `WR.CLR1` (R220). -/
  | wrClr1 (width value : Nat)
  /-- `WR.EDS0` (R221). -/
  | wrEds0 (width value : Nat)
  /-- `WR.EDS1` (R222). -/
  | wrEds1 (width value : Nat)
  /-- `WR.REN0` (R223). -/
  | wrRen0 (width value : Nat)
  /-- `WR.REN1` (R224). -/
  | wrRen1 (width value : Nat)
  /-- `WR.FEN0` (R225). -/
  | wrFen0 (width value : Nat)
  /-- `WR.FEN1` (R226). -/
  | wrFen1 (width value : Nat)
  /-- `WR.HEN0` (R227). -/
  | wrHen0 (width value : Nat)
  /-- `WR.HEN1` (R228). -/
  | wrHen1 (width value : Nat)
  /-- `WR.LEN0` (R229). -/
  | wrLen0 (width value : Nat)
  /-- `WR.LEN1` (R230). -/
  | wrLen1 (width value : Nat)
  /-- `WR.AREN0` (R231). -/
  | wrAren0 (width value : Nat)
  /-- `WR.AREN1` (R232). -/
  | wrAren1 (width value : Nat)
  /-- `WR.AFEN0` (R233). -/
  | wrAfen0 (width value : Nat)
  /-- `WR.AFEN1` (R234). -/
  | wrAfen1 (width value : Nat)
  /-- `WR.PUD` (R235). -/
  | wrPud (width value : Nat)
  /-- `WR.PUDCLK0` (R236). -/
  | wrPudclk0 (width value : Nat)
  /-- `WR.PUDCLK1` (R237). -/
  | wrPudclk1 (width value : Nat)
  /-- `WR.LEVEL0` (R248). -/
  | wrLevel0 (width value : Nat)
  /-- `WR.LEVEL1` (R249). -/
  | wrLevel1 (width value : Nat)
  /-- `WR.RSVD_18` (R250). -/
  | wrRsvd18 (width value : Nat)
  /-- `WR.RSVD_24` (R250). -/
  | wrRsvd24 (width value : Nat)
  /-- `WR.RSVD_30` (R250). -/
  | wrRsvd30 (width value : Nat)
  /-- `WR.RSVD_3C` (R250). -/
  | wrRsvd3c (width value : Nat)
  /-- `WR.RSVD_48` (R250). -/
  | wrRsvd48 (width value : Nat)
  /-- `WR.RSVD_54` (R250). -/
  | wrRsvd54 (width value : Nat)
  /-- `WR.RSVD_60` (R250). -/
  | wrRsvd60 (width value : Nat)
  /-- `WR.RSVD_6C` (R250). -/
  | wrRsvd6c (width value : Nat)
  /-- `WR.RSVD_78` (R250). -/
  | wrRsvd78 (width value : Nat)
  /-- `WR.RSVD_84` (R250). -/
  | wrRsvd84 (width value : Nat)
  /-- `WR.RSVD_90` (R250). -/
  | wrRsvd90 (width value : Nat)
  /-- `WR.RSVD_A0` (R250). -/
  | wrRsvda0 (width value : Nat)
  /-- `WR.RSVD_B0` (R250). -/
  | wrRsvdb0 (width value : Nat)
  /-- `WR.UNDEF` (R251). -/
  | wrUndef (offset width value : Nat)
  /-- `WR.BAD` (R247). -/
  | wrBad (offset width value : Nat)
  /-- `LINE` (R261). -/
  | line (pin : Pin) (level : Bool)
  /-- `RESET` (R300). -/
  | reset
  /-- `INIT` (R301). -/
  | init (attach : Attach)
  /-- `SNAPSAVE` (R310). -/
  | snapsave
  /-- `SNAPLOAD` (R311). -/
  | snapload (fields : SnapFields)
  /-- `fn` (R140). -/
  | fn (p : Pin)
  /-- `derive` (R150). -/
  | derive
  /-- `push` (R160). -/
  | push
  /-- `pull` (R163). -/
  | pull
deriving DecidableEq, Repr

end Sys2Proof
end

