-- ==== Sys2Proof/Machine/State.lean ====
section
/-! DEFINITION. The state of the block as plain data (10_state.md R20, R42, R43, R45), the model's own fields for the
environment (inputs, external agent, result), and the state right after reset. -/

namespace Sys2Proof.Machine

/-- The ten fields of the shared record (R42, R76). -/
inductive ShmField where
  | fsel (n : Fin 6)
  | level (r : Fin 2)
  | outstate (r : Fin 2)
deriving DecidableEq, Repr

/-- One word access of the external agent to the shared record (R92): `EXT.LD` or `EXT.ST` of R131. -/
inductive ExtAccess where
  | load (f : ShmField)
  | store (f : ShmField) (v : Word)
deriving DecidableEq, Repr

/-- Direction of a bridge transfer, as a record of the trace names it (R45). -/
inductive BridgeDir where
  | push
  | pull
deriving DecidableEq, Repr

/-- A record of the diagnostic trace (R45, R270). -/
inductive Diag where
  | badOffsetRead (offset : Nat)
  | badOffsetWrite (offset : Nat) (value : Word)
  | attachFailed
  | bridgeSkipped (dir : BridgeDir)
deriving DecidableEq, Repr

/-- What an operation delivers to whoever issued it (R110): bus data zero-extended to the widest data path (R79), the
29 values of a snapshot (R310), a function code (R140), or nothing. -/
inductive Result where
  | nothing
  | busData (v : BitVec 64)
  | snapshot (fields : SnapFields)
  | code (c : BitVec 3)
deriving DecidableEq, Repr

/-- One entry of the host's serialised order (R13, R84): an operation of the device, or an access of the external agent
between two operations. -/
inductive Input where
  | op (e : Event)
  | ext (a : ExtAccess)
deriving DecidableEq, Repr

/-- The 29 bus-addressable registers of the register file (R20, R72), each under its own name. -/
inductive Reg where
  | fsel (n : Fin 6)
  | gpset (r : Fin 2)
  | gpclr (r : Fin 2)
  | level (r : Fin 2)
  | eds (r : Fin 2)
  | ren (r : Fin 2)
  | fen (r : Fin 2)
  | hen (r : Fin 2)
  | len (r : Fin 2)
  | aren (r : Fin 2)
  | afen (r : Fin 2)
  | pud
  | pudclk (r : Fin 2)
deriving DecidableEq, Repr

/-- The register file (R20): 29 bus-addressable registers, the derived output pair and the write counter. -/
structure RegFile where
  /-- `FSEL[0..5]` (R23). -/
  fsel : FselRegs
  /-- `SET[0..1]` (R25). -/
  gpset : Bank
  /-- `CLR[0..1]` (R26). -/
  gpclr : Bank
  /-- `LEVEL[0..1]` (R27). -/
  level : Bank
  /-- `EDS[0..1]` (R30). -/
  eds : Bank
  /-- `REN[0..1]` (R31). -/
  ren : Bank
  /-- `FEN[0..1]` (R32). -/
  fen : Bank
  /-- `HEN[0..1]` (R33). -/
  hen : Bank
  /-- `LEN[0..1]` (R34). -/
  len : Bank
  /-- `AREN[0..1]` (R35). -/
  aren : Bank
  /-- `AFEN[0..1]` (R36). -/
  afen : Bank
  /-- `PUD` (R37). -/
  pud : Word
  /-- `PUDCLK[0..1]` (R38). -/
  pudclk : Bank
  /-- `OUTSTATE[0..1]`, not bus-addressable (R40). -/
  outstate : Bank
  /-- `WCOUNT`, a natural number without wrap (R41, D8). -/
  wcount : Nat
deriving DecidableEq, Repr

/-- The register file after `RESET`: every register and the write counter 0 (R48). -/
def RegFile.zero : RegFile :=
  { fsel := .zero, gpset := .zero, gpclr := .zero, level := .zero, eds := .zero, ren := .zero, fen := .zero
    hen := .zero, len := .zero, aren := .zero, afen := .zero, pud := 0, pudclk := .zero, outstate := .zero
    wcount := 0 }

/-- The bytes of the shared record, as (address, byte) pairs with addresses strictly rising and no entry equal to what an
unlisted address reads as (`Memory.wf` of Machine/Ops.lean). -/
abbrev Memory := List Host.Cell

/-- The machine. `regs`, `shm`, `bridgeValid` and `diag` are the spec's state; `params` the parameters of R8 that the model
takes as an argument; the rest is the model's own (INVENTORY.md, '## State'). -/
structure State where
  /-- The register file (R20). -/
  regs : RegFile
  /-- The shared record `SHM` (R42), 40 bytes (R76). -/
  shm : Memory
  /-- `BRIDGE_VALID` (R43). -/
  bridgeValid : Bool
  /-- The diagnostic trace `DIAG`, oldest record first (R45). -/
  diag : List Diag
  /-- `P_TIE_CLEARS_CLR`, `P_POST_ON_BAD_WRITE`, `SHM_ENDIAN` (R8). No operation changes them. -/
  params : Config.Params
  /-- `INIT` has been performed (R302, D30). -/
  inited : Bool
  /-- What the operation performed last delivered (R110). -/
  result : Result
  /-- The inputs not yet performed, in the host's order (R13). -/
  pending : List Input
  /-- What the external agent does right before each of the device's next word accesses to the shared record; when the
  list is used up it does nothing there (R90 to R92). -/
  bursts : List (List ExtAccess)
  /-- The order of the eight stores of each of the next pushes, as the environment chooses it; when the list is used up,
  the record order (R90, D15). -/
  orders : List (List ShmField)
  /-- The order in which each of the next pulls comes to the pins, as the environment chooses it; when the list is used up,
  ascending (R91, R163, D15). -/
  pullOrders : List (List Pin)
  /-- What the loads of the external agent have returned, oldest first (R92, R93). -/
  extSeen : List (ShmField × Word)
  /-- The counter that the free values of `INIT` are applied to (R49). -/
  draws : Nat
deriving DecidableEq, Repr

/-- The block has no fault outcome: every admitted event has a next state (R278). -/
inductive Fault where
deriving DecidableEq, Repr

/-- Why an event has no next state. Each constructor is raised only where the spec gives the event no meaning. -/
inductive Refusal where
  /-- Raised by no arm: every instruction of the table has its meaning. Safe. -/
  | notModelled (mnemonic : String)
  /-- Raised by the decoder for a line event whose pin is 54 or more: "the event is refused" (R262, D26). Safe. -/
  | pinOutOfRange (pin : Nat)
  /-- Raised by the decoder for a selector that has none of the formats BR, BW, LN, CT (R112 to R116), or an `INIT` whose
  operand word names no answer of the environment. Safe. -/
  | noFormat (sel : Nat)
  /-- Raised by the decoder for a `SNAPLOAD` that does not carry exactly 29 words (R311). Safe. -/
  | snapshotLength (n : Nat)
  /-- Raised by `INIT` when one has been performed already: "a second `INIT` has no meaning" (R301, D30). Safe. -/
  | secondInit
deriving DecidableEq, Repr

/-- The machine right after `INIT` with a successful attach and `RESET` (R48, R301, R302). Registers, write counter: R48.
`bridgeValid`: the default of R8. `shm`: nothing listed, so every word reads 0 (DESIGN CHOICE, notes/assumptions/2.md). The
rest: nothing delivered, nothing pending, the external agent quiet (DESIGN CHOICE, notes/assumptions/1.md, 6.md, 7.md). -/
def State.reset : State :=
  { regs := .zero, shm := [], bridgeValid := true, diag := [], params := Config.defaultParams, inited := true
    result := .nothing, pending := [], bursts := [], orders := [], pullOrders := [], extSeen := [], draws := 0 }

end Sys2Proof.Machine
end

