-- ==== Sys2Proof/Machine/Operands.lean ====
section
/-! DEFINITION. Operand assembly (30_encoding.md R123 to R125, R129): where a pin's field and bit stand, reads and writes of one
register of a bank, of one bit, and of a register by its name; truncation and extension of data (20_memory.md R79). -/

namespace Sys2Proof

/-- All pins, in ascending order: "`for p in 0..53`" (R10). -/
def pins : List Pin := List.finRange 54

/-- The function-select register of a pin: `p div 10` (R123). -/
def fselReg (p : Pin) : Fin 6 := ⟨p.val / 10, by omega⟩

/-- The lowest bit of a pin's function field: `3 * (p mod 10)` (R123). -/
def fselShift (p : Pin) : Nat := 3 * (p.val % 10)

/-- The register of a bank that holds a pin's bit: `p div 32` (R124). -/
def bankReg (p : Pin) : Fin 2 := ⟨p.val / 32, by omega⟩

/-- The bit of that register: `p mod 32` (R124). -/
def bankBit (p : Pin) : Nat := p.val % 32

/-- `REG[b] <- x`: the other 31 bits keep their values (R10). -/
def setBit (w : Word) (b : Nat) (x : Bool) : Word :=
  if x then w ||| (1#32 <<< b) else w &&& ~~~(1#32 <<< b)

/-- Register `r` of a bank. -/
def Bank.get (k : Bank) (r : Fin 2) : Word :=
  match r with
  | 0 => k.r0
  | 1 => k.r1

/-- A bank with register `r` replaced. -/
def Bank.put (k : Bank) (r : Fin 2) (v : Word) : Bank :=
  match r with
  | 0 => { k with r0 := v }
  | 1 => { k with r1 := v }

/-- The bit of a pin in a bank (R124). -/
def Bank.bit (k : Bank) (p : Pin) : Bool := (k.get (bankReg p)).getLsbD (bankBit p)

/-- A bank with the bit of a pin replaced (R124, R10). -/
def Bank.setBit (k : Bank) (p : Pin) (x : Bool) : Bank :=
  k.put (bankReg p) (Sys2Proof.setBit (k.get (bankReg p)) (bankBit p) x)

/-- `FSEL[n]`. -/
def FselRegs.get (f : FselRegs) (n : Fin 6) : Word :=
  match n with
  | 0 => f.f0
  | 1 => f.f1
  | 2 => f.f2
  | 3 => f.f3
  | 4 => f.f4
  | 5 => f.f5

/-- The function-select registers with `FSEL[n]` replaced. -/
def FselRegs.put (f : FselRegs) (n : Fin 6) (v : Word) : FselRegs :=
  match n with
  | 0 => { f with f0 := v }
  | 1 => { f with f1 := v }
  | 2 => { f with f2 := v }
  | 3 => { f with f3 := v }
  | 4 => { f with f4 := v }
  | 5 => { f with f5 := v }

/-- `trunc32(value)`: the value a write stores (R10, R79, R125). -/
def trunc32 (value : Nat) : Word := BitVec.ofNat 32 value

/-- The data of a read: the whole register zero-extended to the widest data path the bus may have, 64 bits for the 8-byte
width of `BUS_WIDTHS` (R79, R170; notes/assumptions/10.md). -/
def zext (v : Word) : BitVec 64 := v.setWidth 64

end Sys2Proof

namespace Sys2Proof.Machine

/-- Read of a bus-addressable register (R10). -/
def RegFile.read (f : RegFile) (reg : Reg) : Word :=
  match reg with
  | .fsel n => f.fsel.get n
  | .gpset r => f.gpset.get r
  | .gpclr r => f.gpclr.get r
  | .level r => f.level.get r
  | .eds r => f.eds.get r
  | .ren r => f.ren.get r
  | .fen r => f.fen.get r
  | .hen r => f.hen.get r
  | .len r => f.len.get r
  | .aren r => f.aren.get r
  | .afen r => f.afen.get r
  | .pud => f.pud
  | .pudclk r => f.pudclk.get r

/-- `REG <- v`: all 32 bits of a bus-addressable register are replaced; nothing is masked (R10, R28, R125). -/
def RegFile.write (f : RegFile) (reg : Reg) (v : Word) : RegFile :=
  match reg with
  | .fsel n => { f with fsel := f.fsel.put n v }
  | .gpset r => { f with gpset := f.gpset.put r v }
  | .gpclr r => { f with gpclr := f.gpclr.put r v }
  | .level r => { f with level := f.level.put r v }
  | .eds r => { f with eds := f.eds.put r v }
  | .ren r => { f with ren := f.ren.put r v }
  | .fen r => { f with fen := f.fen.put r v }
  | .hen r => { f with hen := f.hen.put r v }
  | .len r => { f with len := f.len.put r v }
  | .aren r => { f with aren := f.aren.put r v }
  | .afen r => { f with afen := f.afen.put r v }
  | .pud => { f with pud := v }
  | .pudclk r => { f with pudclk := f.pudclk.put r v }

/-- The narrow external index of an external collaborator to the native pin (R128, R46). No operation of the device uses it. -/
def narrowPin (i : Fin 8) : Pin := Config.PINMAP.getD i.val 0

end Sys2Proof.Machine
end

