-- ==== Sys2Proof/Machine/Ops.lean ====
section
/-! DEFINITION. The shared operations: the bytes and words of the shared record (20_memory.md R76, R77), the external agent's
accesses (R92) and its turns between two word accesses of the device (R90, R91), the diagnostic record that stands in place of an
exception (00_scope.md R10, 60_exceptions.md R278), and delivering a result (R110).

The block takes no exception and returns from none (R278, R279): `State.emit` is the one shared operation an error runs, after which
the operation goes on with its next step. -/

namespace Sys2Proof.Machine

/-- What a byte of the shared record that is not listed reads as (DESIGN CHOICE, notes/assumptions/2.md). -/
def Memory.fresh : Byte := 0

/-- The byte at an address. -/
def Memory.get : Memory → Nat → Byte
  | [], _ => Memory.fresh
  | (b, v) :: rest, a => if b = a then v else Memory.get rest a

/-- The list with a pair inserted before the first larger address. -/
def Memory.insert : Memory → Nat → Byte → Memory
  | [], a, v => [(a, v)]
  | (b, w) :: rest, a, v => if a < b then (a, v) :: (b, w) :: rest else (b, w) :: Memory.insert rest a v

/-- The list without any pair at an address. -/
def Memory.erase : Memory → Nat → Memory
  | [], _ => []
  | (b, w) :: rest, a => if b = a then Memory.erase rest a else (b, w) :: Memory.erase rest a

/-- The memory with one byte replaced. Writing what an unlisted address reads as removes the entry, so that equal memories are
equal lists. -/
def Memory.set (m : Memory) (a : Nat) (v : Byte) : Memory :=
  if v = Memory.fresh then Memory.erase m a else Memory.insert (Memory.erase m a) a v

/-- Addresses strictly rising from `low`, none at or beyond the record's 40 bytes, no entry equal to what an unlisted address
reads as. -/
def Memory.wfFrom : Nat → Memory → Bool
  | _, [] => true
  | low, (a, v) :: rest =>
    decide (low ≤ a) && decide (a < Config.SHM_BYTES) && decide (v ≠ Memory.fresh) && Memory.wfFrom (a + 1) rest

/-- The canonical form of the shared record. -/
def Memory.wf (m : Memory) : Bool := Memory.wfFrom 0 m

/-- Byte `k` of a word, byte 0 the least significant (R9). -/
def byteOf (v : Word) (k : Nat) : Byte := v.extractLsb' (8 * k) 8

/-- The word of four bytes, the least significant first. -/
def wordOf (b0 b1 b2 b3 : Byte) : Word := b3 ++ b2 ++ b1 ++ b0

/-- `MemRead(addr, 4)` in the byte order of the host (R10, R77). -/
def Memory.readWord (m : Memory) (e : Config.Endian) (a : Nat) : Word :=
  match e with
  | .little => wordOf (Memory.get m a) (Memory.get m (a + 1)) (Memory.get m (a + 2)) (Memory.get m (a + 3))
  | .big => wordOf (Memory.get m (a + 3)) (Memory.get m (a + 2)) (Memory.get m (a + 1)) (Memory.get m a)

/-- The memory with the four bytes at `a` replaced, lowest address first. -/
def Memory.setFour (m : Memory) (a : Nat) (x0 x1 x2 x3 : Byte) : Memory :=
  Memory.set (Memory.set (Memory.set (Memory.set m a x0) (a + 1) x1) (a + 2) x2) (a + 3) x3

/-- `MemWrite(addr, 4, v)` in the byte order of the host (R10, R77). -/
def Memory.writeWord (m : Memory) (e : Config.Endian) (a : Nat) (v : Word) : Memory :=
  match e with
  | .little => Memory.setFour m a (byteOf v 0) (byteOf v 1) (byteOf v 2) (byteOf v 3)
  | .big => Memory.setFour m a (byteOf v 3) (byteOf v 2) (byteOf v 1) (byteOf v 0)

/-- The field's position in the record (R76). -/
def ShmField.index : ShmField → Nat
  | .fsel n => n.val
  | .level r => 6 + r.val
  | .outstate r => 8 + r.val

/-- The byte offset of a field: `4 * k` (R76). -/
def ShmField.addr (f : ShmField) : Nat := 4 * f.index

/-- `ShmRead(field)` (R10). -/
def State.shmRead (s : State) (f : ShmField) : Word := Memory.readWord s.shm s.params.shmEndian f.addr

/-- `ShmWrite(field, v)` (R10). -/
def State.shmWrite (s : State) (f : ShmField) (v : Word) : State :=
  { s with shm := Memory.writeWord s.shm s.params.shmEndian f.addr v }

/-- One access of the external agent: a store writes the word, a load is remembered in `extSeen` (R92). -/
def State.extAccess (s : State) (a : ExtAccess) : State :=
  match a with
  | .load f => { s with extSeen := s.extSeen ++ [(f, s.shmRead f)] }
  | .store f v => s.shmWrite f v

/-- What the external agent does right before the device's next word access to the record (R90 to R92). -/
def State.extTurn (s : State) : State :=
  match s.bursts with
  | [] => s
  | burst :: rest => burst.foldl State.extAccess { s with bursts := rest }

/-- `diag Kind(info)`: append one record to the trace; the operation continues (R10, R45, R278). -/
def State.emit (s : State) (r : Diag) : State := { s with diag := s.diag ++ [r] }

/-- What the operation delivers (R110). -/
def State.deliver (s : State) (r : Result) : State := { s with result := r }

/-- The register file replaced. -/
def State.withRegs (s : State) (f : RegFile) : State := { s with regs := f }

/-- `LEVEL[r][b] <- x` for the bit of a pin (R163, R261). -/
def State.setLevel (s : State) (p : Pin) (x : Bool) : State :=
  s.withRegs { s.regs with level := Bank.setBit s.regs.level p x }

end Sys2Proof.Machine
end

