-- ==== Sys2Proof/Machine/Control.lean ====
section
/-! DEFINITION. The control events (70_reset_and_hazards.md): RESET, INIT, SNAPSAVE, SNAPLOAD. -/

namespace Sys2Proof.Machine

/-- `RESET` (R300): every register and the write counter 0 (R48); the shared record, `BRIDGE_VALID` and the trace keep their values, and
no pull, derive pass or push runs (D29). -/
def execReset (s : State) : Host.Outcome State Fault Refusal :=
  .next ((s.withRegs RegFile.zero).deliver .nothing)

/-- The register file that `INIT` creates: every register and the write counter unspecified (R49, R301). Each is a free value
(notes/assumptions/3.md). -/
def createdRegs (draw : Nat) : RegFile :=
  let w := Config.createdReg draw
  { fsel := ⟨w 0, w 1, w 2, w 3, w 4, w 5⟩, gpset := ⟨w 6, w 7⟩, gpclr := ⟨w 8, w 9⟩, level := ⟨w 10, w 11⟩
    eds := ⟨w 12, w 13⟩, ren := ⟨w 14, w 15⟩, fen := ⟨w 16, w 17⟩, hen := ⟨w 18, w 19⟩, len := ⟨w 20, w 21⟩
    aren := ⟨w 22, w 23⟩, afen := ⟨w 24, w 25⟩, pud := w 26, pudclk := ⟨w 27, w 28⟩, outstate := ⟨w 29, w 30⟩
    wcount := Config.createdCount draw }

/-- The record holding ten given words, each stored at its field (R76): a newly created segment holds `SHM_INIT` (R301). -/
def memoryOf (e : Config.Endian) (m : ShmWords) : Memory :=
  let put (f : ShmField) (v : Word) (mem : Memory) : Memory := Memory.writeWord mem e f.addr v
  put (.fsel 0) m.fsel.f0 <| put (.fsel 1) m.fsel.f1 <| put (.fsel 2) m.fsel.f2 <| put (.fsel 3) m.fsel.f3 <|
  put (.fsel 4) m.fsel.f4 <| put (.fsel 5) m.fsel.f5 <| put (.level 0) m.level.r0 <| put (.level 1) m.level.r1 <|
  put (.outstate 0) m.outstate.r0 <| put (.outstate 1) m.outstate.r1 []

/-- What the attach of the shared segment does (R301): success makes the bridge valid, a created segment holds `SHM_INIT`, one that
existed is kept as found; failure makes the bridge invalid and is recorded (R273). -/
def State.attach (s : State) (answer : Attach) : State :=
  match answer with
  | .found => { s with bridgeValid := true }
  | .created contents => { s with bridgeValid := true, shm := memoryOf s.params.shmEndian contents }
  | .failed => { s with bridgeValid := false }.emit .attachFailed

/-- `INIT` (R301): the register file is created with unspecified contents (R49) and the segment attached. It happens once in a
device's life: a second one has no meaning and is refused (R301, D30; notes/assumptions/11.md). -/
def execInit (attach : Attach) (s : State) : Host.Outcome State Fault Refusal :=
  if s.inited then .refused .secondInit
  else
    .next (({ s with inited := true, regs := createdRegs s.draws, draws := s.draws + 1 }.attach attach).deliver .nothing)

/-- The 29 values of `SNAP_FIELDS` (R50). -/
def snapOf (f : RegFile) : SnapFields :=
  { fsel := f.fsel, gpset := f.gpset, gpclr := f.gpclr, level := f.level, eds := f.eds, ren := f.ren, fen := f.fen
    hen := f.hen, len := f.len, aren := f.aren, afen := f.afen, pud := f.pud, pudclk := f.pudclk }

/-- A register file with the 29 registers of `SNAP_FIELDS` overwritten; `OUTSTATE` and `WCOUNT` keep their values (R311). -/
def loadSnap (f : RegFile) (x : SnapFields) : RegFile :=
  { fsel := x.fsel, gpset := x.gpset, gpclr := x.gpclr, level := x.level, eds := x.eds, ren := x.ren, fen := x.fen
    hen := x.hen, len := x.len, aren := x.aren, afen := x.afen, pud := x.pud, pudclk := x.pudclk
    outstate := f.outstate, wcount := f.wcount }

/-- `SNAPSAVE` (R310): a pure read of the 29 registers, without a pull first. -/
def execSnapsave (s : State) : Host.Outcome State Fault Refusal :=
  .next (s.deliver (.snapshot (snapOf s.regs)))

/-- `SNAPLOAD` (R311): a plain overwrite; no derive pass, push or pull runs (D17). -/
def execSnapload (fields : SnapFields) (s : State) : Host.Outcome State Fault Refusal :=
  .next ((s.withRegs (loadSnap s.regs fields)).deliver .nothing)

end Sys2Proof.Machine
end

