-- ==== Sys2Proof/Machine/PinFunction.lean ====
section
/-! DEFINITION. The pin-function decoder (40_pin_function_decoder.md): `fn(p)`. -/

namespace Sys2Proof.Machine

/-- `fn(p) = (FSEL[p div 10] >> (3 * (p mod 10))) & 7` (R140). It is given the function-select registers alone, so it depends on
nothing else (R142), and only pins 0 to 53, so it has no value elsewhere (R144). -/
def fnCode (f : FselRegs) (p : Pin) : BitVec 3 :=
  (FselRegs.get f (fselReg p) >>> fselShift p).setWidth 3

/-- `fn` (R140), the internal sub-operation on its own: it delivers the code and writes no state of the block. -/
def execFn (p : Pin) (s : State) : Host.Outcome State Fault Refusal :=
  .next (s.deliver (.code (fnCode s.regs.fsel p)))

end Sys2Proof.Machine
end

