-- ==== Sys2Proof/Machine/Flags.lean ====
section
/-! DEFINITION. The block has no flags, condition codes or predicate registers (10_state.md R29), so no operation computes one.
What decides an operation's effect are the two tests of the function code and their masks (40_pin_function_decoder.md R141), computed
anew from the function-select registers at every use (20_memory.md R96); and the mask forms that the spec says equal the loops
(R152, R164). -/

namespace Sys2Proof.Machine

/-- `is_input(p)` (R141). -/
def isInput (f : FselRegs) (p : Pin) : Bool := fnCode f p == Config.FN_INPUT

/-- `is_output(p)` (R141). -/
def isOutput (f : FselRegs) (p : Pin) : Bool := fnCode f p == Config.FN_OUTPUT

/-- OR over the pins of register `r` for which `test` holds of `1 << (p mod 32)` (R141). -/
def maskOf (test : Pin → Bool) (r : Fin 2) : Word :=
  pins.foldl (fun m p => if bankReg p = r ∧ test p then m ||| (1#32 <<< bankBit p) else m) 0

/-- `IN_MASK[r]` (R141). -/
def inMask (f : FselRegs) (r : Fin 2) : Word := maskOf (isInput f) r

/-- `OUT_MASK[r]` (R141). -/
def outMask (f : FselRegs) (r : Fin 2) : Word := maskOf (isOutput f) r

/-- The derive pass in mask form, for register `r` of each bank (R152): the new `(OUTSTATE[r], SET[r], CLR[r])`. -/
def deriveMasked (tieClearsClr : Bool) (o set clr out : Word) : Word × Word × Word :=
  let s := set &&& o
  let c := clr &&& o &&& ~~~s
  ((out ||| s) &&& ~~~c, set &&& ~~~s, if tieClearsClr then clr &&& ~~~o else clr &&& ~~~c)

/-- The pull in mask form, for one register: `i` is `IN_MASK[r]`, `v` the shared word (R164). -/
def pullMasked (i level v : Word) : Word := (level &&& ~~~i) ||| (v &&& i)

end Sys2Proof.Machine
end

