-- ==== Sys2Proof/Machine/Line.lean ====
section
/-! DEFINITION. The external line interface (45_external_lines_and_control.md). The 54 output lines have no operation and no state
(R44, R264; notes/assumptions/12.md). -/

namespace Sys2Proof.Machine

/-- `LINE pin, level` (R261): the level bit of an Input pin takes the normalised level (R129); for any other pin the event is a
no-op that leaves nothing behind (R47). No pull, derive pass or push runs (R263). -/
def execLine (pin : Pin) (level : Bool) (s : State) : Host.Outcome State Fault Refusal :=
  .next ((if isInput s.regs.fsel pin then s.setLevel pin level else s).deliver .nothing)

end Sys2Proof.Machine
end

