-- ==== Sys2Proof/Machine/Bridge.lean ====
section
/-! DEFINITION. The shared bridge (42_shared_bridge.md): push and pull, with the external agent's turns between the device's word
accesses (20_memory.md R90, R91). -/

namespace Sys2Proof.Machine

/-- The fields a push stores to, in the record's order (R76, R160). -/
def pushedFields : List ShmField :=
  [.fsel 0, .fsel 1, .fsel 2, .fsel 3, .fsel 4, .fsel 5, .outstate 0, .outstate 1]

/-- What is still to do, that named by `order` first: always a rearrangement of `todo`, whatever `order` is (R90, R91). -/
def arrange {α : Type} [DecidableEq α] : List α → List α → List α
  | [], todo => todo
  | f :: order, todo => if f ∈ todo then f :: arrange order (todo.erase f) else arrange order todo

/-- The register a push copies to a field (R160). The level fields are in no push (R161). -/
def pushedValue (f : RegFile) : ShmField → Word
  | .fsel n => FselRegs.get f.fsel n
  | .level r => Bank.get f.level r
  | .outstate r => Bank.get f.outstate r

/-- One store of a push, after the external agent's turn (R90). -/
def pushField (s : State) (f : ShmField) : State :=
  let s := s.extTurn
  s.shmWrite f (pushedValue s.regs f)

/-- The stores of a push in the order the environment chose for it (R90, D15; notes/assumptions/6.md). -/
def pushStores (s : State) : State :=
  match s.orders with
  | [] => pushedFields.foldl pushField s
  | order :: rest => (arrange order pushedFields).foldl pushField { s with orders := rest }

/-- `push()` (R160); with an invalid bridge it is skipped and recorded (R166). -/
def State.push (s : State) : State :=
  if s.bridgeValid then pushStores s else s.emit (.bridgeSkipped .push)

/-- The body of the pull for one pin: an Input pin takes its bit from the shared level field as that field is when it is loaded, the
external agent having had its turn (R163, R91). -/
def pullPin (s : State) (p : Pin) : State :=
  if isInput s.regs.fsel p then
    let s := s.extTurn
    s.setLevel p ((s.shmRead (.level (bankReg p))).getLsbD (bankBit p))
  else s

/-- The order in which the next pull comes to the pins: R163 writes it ascending, R91 lets each Input pin see any moment of the pull, so that
the environment may choose another (D15; notes/assumptions/15.md). -/
def pullOrder (s : State) : List Pin :=
  match s.pullOrders with
  | [] => pins
  | order :: _ => arrange order pins

/-- `pull()` (R163); with an invalid bridge it is skipped and recorded (R166). -/
def State.pull (s : State) : State :=
  if s.bridgeValid then (pullOrder s).foldl pullPin { s with pullOrders := s.pullOrders.tail }
  else s.emit (.bridgeSkipped .pull)

/-- `push` (R160), the internal sub-operation on its own. -/
def execPush (s : State) : Host.Outcome State Fault Refusal := .next s.push

/-- `pull` (R163), the internal sub-operation on its own. -/
def execPull (s : State) : Host.Outcome State Fault Refusal := .next s.pull

end Sys2Proof.Machine
end

