-- ==== Sys2Proof/Machine/MmioRead.lean ====
section
/-! DEFINITION. Bus reads (43_mmio_read.md): the common path of R170 and one definition per row. -/

namespace Sys2Proof.Machine

/-- The readable branch of R170: the pull first, then the whole 32-bit register, zero-extended; the width is ignored (R78, R79). -/
def readReg (reg : Reg) (_width : Nat) (s : State) : State :=
  let s := s.pull
  s.deliver (.busData (zext (RegFile.read s.regs reg)))

/-- The bad-offset branch of R170: the pull first, then one record, and data 0 (R196, R271). -/
def readBad (offset _width : Nat) (s : State) : State :=
  let s := s.pull
  (s.emit (.badOffsetRead offset)).deliver (.busData 0)

/-- `RD.FSEL0` (R171): read `FSEL[0]`. -/
def execRdFsel0 (width : Nat) (s : State) : Host.Outcome State Fault Refusal := .next (readReg (.fsel 0) width s)

/-- `RD.FSEL1` (R172): read `FSEL[1]`. -/
def execRdFsel1 (width : Nat) (s : State) : Host.Outcome State Fault Refusal := .next (readReg (.fsel 1) width s)

/-- `RD.FSEL2` (R173): read `FSEL[2]`. -/
def execRdFsel2 (width : Nat) (s : State) : Host.Outcome State Fault Refusal := .next (readReg (.fsel 2) width s)

/-- `RD.FSEL3` (R174): read `FSEL[3]`. -/
def execRdFsel3 (width : Nat) (s : State) : Host.Outcome State Fault Refusal := .next (readReg (.fsel 3) width s)

/-- `RD.FSEL4` (R175): read `FSEL[4]`. -/
def execRdFsel4 (width : Nat) (s : State) : Host.Outcome State Fault Refusal := .next (readReg (.fsel 4) width s)

/-- `RD.FSEL5` (R176): read `FSEL[5]`. -/
def execRdFsel5 (width : Nat) (s : State) : Host.Outcome State Fault Refusal := .next (readReg (.fsel 5) width s)

/-- `RD.LEVEL0` (R177): read `LEVEL[0]`. -/
def execRdLevel0 (width : Nat) (s : State) : Host.Outcome State Fault Refusal := .next (readReg (.level 0) width s)

/-- `RD.LEVEL1` (R178): read `LEVEL[1]`. -/
def execRdLevel1 (width : Nat) (s : State) : Host.Outcome State Fault Refusal := .next (readReg (.level 1) width s)

/-- `RD.EDS0` (R179): read `EDS[0]`. -/
def execRdEds0 (width : Nat) (s : State) : Host.Outcome State Fault Refusal := .next (readReg (.eds 0) width s)

/-- `RD.EDS1` (R180): read `EDS[1]`. -/
def execRdEds1 (width : Nat) (s : State) : Host.Outcome State Fault Refusal := .next (readReg (.eds 1) width s)

/-- `RD.REN0` (R181): read `REN[0]`. -/
def execRdRen0 (width : Nat) (s : State) : Host.Outcome State Fault Refusal := .next (readReg (.ren 0) width s)

/-- `RD.REN1` (R182): read `REN[1]`. -/
def execRdRen1 (width : Nat) (s : State) : Host.Outcome State Fault Refusal := .next (readReg (.ren 1) width s)

/-- `RD.FEN0` (R183): read `FEN[0]`. -/
def execRdFen0 (width : Nat) (s : State) : Host.Outcome State Fault Refusal := .next (readReg (.fen 0) width s)

/-- `RD.FEN1` (R184): read `FEN[1]`. -/
def execRdFen1 (width : Nat) (s : State) : Host.Outcome State Fault Refusal := .next (readReg (.fen 1) width s)

/-- `RD.HEN0` (R185): read `HEN[0]`. -/
def execRdHen0 (width : Nat) (s : State) : Host.Outcome State Fault Refusal := .next (readReg (.hen 0) width s)

/-- `RD.HEN1` (R186): read `HEN[1]`. -/
def execRdHen1 (width : Nat) (s : State) : Host.Outcome State Fault Refusal := .next (readReg (.hen 1) width s)

/-- `RD.LEN0` (R187): read `LEN[0]`. -/
def execRdLen0 (width : Nat) (s : State) : Host.Outcome State Fault Refusal := .next (readReg (.len 0) width s)

/-- `RD.LEN1` (R188): read `LEN[1]`. -/
def execRdLen1 (width : Nat) (s : State) : Host.Outcome State Fault Refusal := .next (readReg (.len 1) width s)

/-- `RD.AREN0` (R189): read `AREN[0]`. -/
def execRdAren0 (width : Nat) (s : State) : Host.Outcome State Fault Refusal := .next (readReg (.aren 0) width s)

/-- `RD.AREN1` (R190): read `AREN[1]`. -/
def execRdAren1 (width : Nat) (s : State) : Host.Outcome State Fault Refusal := .next (readReg (.aren 1) width s)

/-- `RD.AFEN0` (R191): read `AFEN[0]`. -/
def execRdAfen0 (width : Nat) (s : State) : Host.Outcome State Fault Refusal := .next (readReg (.afen 0) width s)

/-- `RD.AFEN1` (R192): read `AFEN[1]`. -/
def execRdAfen1 (width : Nat) (s : State) : Host.Outcome State Fault Refusal := .next (readReg (.afen 1) width s)

/-- `RD.PUD` (R193): read `PUD`. -/
def execRdPud (width : Nat) (s : State) : Host.Outcome State Fault Refusal := .next (readReg (.pud) width s)

/-- `RD.PUDCLK0` (R194): read `PUDCLK[0]`. -/
def execRdPudclk0 (width : Nat) (s : State) : Host.Outcome State Fault Refusal := .next (readReg (.pudclk 0) width s)

/-- `RD.PUDCLK1` (R195): read `PUDCLK[1]`. -/
def execRdPudclk1 (width : Nat) (s : State) : Host.Outcome State Fault Refusal := .next (readReg (.pudclk 1) width s)

/-- `RD.SET0` (R197): bad offset 0x1c. -/
def execRdSet0 (width : Nat) (s : State) : Host.Outcome State Fault Refusal := .next (readBad 0x1c width s)

/-- `RD.SET1` (R198): bad offset 0x20. -/
def execRdSet1 (width : Nat) (s : State) : Host.Outcome State Fault Refusal := .next (readBad 0x20 width s)

/-- `RD.CLR0` (R199): bad offset 0x28. -/
def execRdClr0 (width : Nat) (s : State) : Host.Outcome State Fault Refusal := .next (readBad 0x28 width s)

/-- `RD.CLR1` (R200): bad offset 0x2c. -/
def execRdClr1 (width : Nat) (s : State) : Host.Outcome State Fault Refusal := .next (readBad 0x2c width s)

/-- `RD.RSVD_18` (R201): bad offset 0x18. -/
def execRdRsvd18 (width : Nat) (s : State) : Host.Outcome State Fault Refusal := .next (readBad 0x18 width s)

/-- `RD.RSVD_24` (R201): bad offset 0x24. -/
def execRdRsvd24 (width : Nat) (s : State) : Host.Outcome State Fault Refusal := .next (readBad 0x24 width s)

/-- `RD.RSVD_30` (R201): bad offset 0x30. -/
def execRdRsvd30 (width : Nat) (s : State) : Host.Outcome State Fault Refusal := .next (readBad 0x30 width s)

/-- `RD.RSVD_3C` (R201): bad offset 0x3c. -/
def execRdRsvd3c (width : Nat) (s : State) : Host.Outcome State Fault Refusal := .next (readBad 0x3c width s)

/-- `RD.RSVD_48` (R201): bad offset 0x48. -/
def execRdRsvd48 (width : Nat) (s : State) : Host.Outcome State Fault Refusal := .next (readBad 0x48 width s)

/-- `RD.RSVD_54` (R201): bad offset 0x54. -/
def execRdRsvd54 (width : Nat) (s : State) : Host.Outcome State Fault Refusal := .next (readBad 0x54 width s)

/-- `RD.RSVD_60` (R201): bad offset 0x60. -/
def execRdRsvd60 (width : Nat) (s : State) : Host.Outcome State Fault Refusal := .next (readBad 0x60 width s)

/-- `RD.RSVD_6C` (R201): bad offset 0x6c. -/
def execRdRsvd6c (width : Nat) (s : State) : Host.Outcome State Fault Refusal := .next (readBad 0x6c width s)

/-- `RD.RSVD_78` (R201): bad offset 0x78. -/
def execRdRsvd78 (width : Nat) (s : State) : Host.Outcome State Fault Refusal := .next (readBad 0x78 width s)

/-- `RD.RSVD_84` (R201): bad offset 0x84. -/
def execRdRsvd84 (width : Nat) (s : State) : Host.Outcome State Fault Refusal := .next (readBad 0x84 width s)

/-- `RD.RSVD_90` (R201): bad offset 0x90. -/
def execRdRsvd90 (width : Nat) (s : State) : Host.Outcome State Fault Refusal := .next (readBad 0x90 width s)

/-- `RD.RSVD_A0` (R201): bad offset 0xa0. -/
def execRdRsvda0 (width : Nat) (s : State) : Host.Outcome State Fault Refusal := .next (readBad 0xa0 width s)

/-- `RD.RSVD_B0` (R201): bad offset 0xb0. -/
def execRdRsvdb0 (width : Nat) (s : State) : Host.Outcome State Fault Refusal := .next (readBad 0xb0 width s)

/-- `RD.UNDEF` (R202): any remaining offset. -/
def execRdUndef (offset width : Nat) (s : State) : Host.Outcome State Fault Refusal := .next (readBad offset width s)

/-- `RD.BAD` (R196): any offset not in the readable list. -/
def execRdBad (offset width : Nat) (s : State) : Host.Outcome State Fault Refusal := .next (readBad offset width s)

end Sys2Proof.Machine
end

