-- ==== Sys2Proof/Machine/Deriver.lean ====
section
/-! DEFINITION. The output state deriver (41_output_state_deriver.md). -/

namespace Sys2Proof.Machine

/-- The body of the derive pass for one pin (R150). SET wins a tie; whether it also clears the CLR bit is `P_TIE_CLEARS_CLR` (R151).
A pin that is not Output is left alone (R153). -/
def derivePin (tieClearsClr : Bool) (f : RegFile) (p : Pin) : RegFile :=
  if isOutput f.fsel p then
    if Bank.bit f.gpset p then
      { f with
        outstate := Bank.setBit f.outstate p true
        gpset := Bank.setBit f.gpset p false
        gpclr := if tieClearsClr then Bank.setBit f.gpclr p false else f.gpclr }
    else if Bank.bit f.gpclr p then
      { f with outstate := Bank.setBit f.outstate p false, gpclr := Bank.setBit f.gpclr p false }
    else f
  else f

/-- `derive()` on the register file: the body for each pin in ascending order (R150, R157). -/
def deriveRegs (tieClearsClr : Bool) (f : RegFile) : RegFile :=
  pins.foldl (derivePin tieClearsClr) f

/-- `derive()` (R150): it changes nothing but the register file (R155). -/
def State.derive (s : State) : State := s.withRegs (deriveRegs s.params.tieClearsClr s.regs)

/-- `derive` (R150), the internal sub-operation on its own. -/
def execDerive (s : State) : Host.Outcome State Fault Refusal := .next s.derive

end Sys2Proof.Machine
end

