-- ==== Sys2Proof/Machine/MmioWrite.lean ====
section
/-! DEFINITION. Bus writes (44_mmio_write.md): the common path of R210 and one definition per row. -/

namespace Sys2Proof.Machine

/-- `WCOUNT <- WCOUNT + 1`, the first step of every bus write (R41, R210, D8). -/
def State.countWrite (s : State) : State := s.withRegs { s.regs with wcount := s.regs.wcount + 1 }

/-- The writable branch of R210: count, assign the whole register, derive, push; the width is ignored (R78). -/
def writeReg (reg : Reg) (_width value : Nat) (s : State) : State :=
  let s := s.countWrite
  let s := s.withRegs (RegFile.write s.regs reg (trunc32 value))
  s.derive.push.deliver .nothing

/-- The bad-offset branch of R210: count, one record, the value dropped; the two passes run when `P_POST_ON_BAD_WRITE` says so (R247,
R272, D7). -/
def writeBad (offset _width value : Nat) (s : State) : State :=
  let t := s.countWrite.emit (.badOffsetWrite offset (trunc32 value))
  (if s.params.postOnBadWrite then t.derive.push else t).deliver .nothing

/-- `WR.FSEL0` (R211): write `FSEL[0]`. -/
def execWrFsel0 (width value : Nat) (s : State) : Host.Outcome State Fault Refusal := .next (writeReg (.fsel 0) width value s)

/-- `WR.FSEL1` (R212): write `FSEL[1]`. -/
def execWrFsel1 (width value : Nat) (s : State) : Host.Outcome State Fault Refusal := .next (writeReg (.fsel 1) width value s)

/-- `WR.FSEL2` (R213): write `FSEL[2]`. -/
def execWrFsel2 (width value : Nat) (s : State) : Host.Outcome State Fault Refusal := .next (writeReg (.fsel 2) width value s)

/-- `WR.FSEL3` (R214): write `FSEL[3]`. -/
def execWrFsel3 (width value : Nat) (s : State) : Host.Outcome State Fault Refusal := .next (writeReg (.fsel 3) width value s)

/-- `WR.FSEL4` (R215): write `FSEL[4]`. -/
def execWrFsel4 (width value : Nat) (s : State) : Host.Outcome State Fault Refusal := .next (writeReg (.fsel 4) width value s)

/-- `WR.FSEL5` (R216): write `FSEL[5]`. -/
def execWrFsel5 (width value : Nat) (s : State) : Host.Outcome State Fault Refusal := .next (writeReg (.fsel 5) width value s)

/-- `WR.SET0` (R217): write `SET[0]`. -/
def execWrSet0 (width value : Nat) (s : State) : Host.Outcome State Fault Refusal := .next (writeReg (.gpset 0) width value s)

/-- `WR.SET1` (R218): write `SET[1]`. -/
def execWrSet1 (width value : Nat) (s : State) : Host.Outcome State Fault Refusal := .next (writeReg (.gpset 1) width value s)

/-- `WR.CLR0` (R219): write `CLR[0]`. -/
def execWrClr0 (width value : Nat) (s : State) : Host.Outcome State Fault Refusal := .next (writeReg (.gpclr 0) width value s)

/-- `WR.CLR1` (R220): write `CLR[1]`. -/
def execWrClr1 (width value : Nat) (s : State) : Host.Outcome State Fault Refusal := .next (writeReg (.gpclr 1) width value s)

/-- `WR.EDS0` (R221): write `EDS[0]`. -/
def execWrEds0 (width value : Nat) (s : State) : Host.Outcome State Fault Refusal := .next (writeReg (.eds 0) width value s)

/-- `WR.EDS1` (R222): write `EDS[1]`. -/
def execWrEds1 (width value : Nat) (s : State) : Host.Outcome State Fault Refusal := .next (writeReg (.eds 1) width value s)

/-- `WR.REN0` (R223): write `REN[0]`. -/
def execWrRen0 (width value : Nat) (s : State) : Host.Outcome State Fault Refusal := .next (writeReg (.ren 0) width value s)

/-- `WR.REN1` (R224): write `REN[1]`. -/
def execWrRen1 (width value : Nat) (s : State) : Host.Outcome State Fault Refusal := .next (writeReg (.ren 1) width value s)

/-- `WR.FEN0` (R225): write `FEN[0]`. -/
def execWrFen0 (width value : Nat) (s : State) : Host.Outcome State Fault Refusal := .next (writeReg (.fen 0) width value s)

/-- `WR.FEN1` (R226): write `FEN[1]`. -/
def execWrFen1 (width value : Nat) (s : State) : Host.Outcome State Fault Refusal := .next (writeReg (.fen 1) width value s)

/-- `WR.HEN0` (R227): write `HEN[0]`. -/
def execWrHen0 (width value : Nat) (s : State) : Host.Outcome State Fault Refusal := .next (writeReg (.hen 0) width value s)

/-- `WR.HEN1` (R228): write `HEN[1]`. -/
def execWrHen1 (width value : Nat) (s : State) : Host.Outcome State Fault Refusal := .next (writeReg (.hen 1) width value s)

/-- `WR.LEN0` (R229): write `LEN[0]`. -/
def execWrLen0 (width value : Nat) (s : State) : Host.Outcome State Fault Refusal := .next (writeReg (.len 0) width value s)

/-- `WR.LEN1` (R230): write `LEN[1]`. -/
def execWrLen1 (width value : Nat) (s : State) : Host.Outcome State Fault Refusal := .next (writeReg (.len 1) width value s)

/-- `WR.AREN0` (R231): write `AREN[0]`. -/
def execWrAren0 (width value : Nat) (s : State) : Host.Outcome State Fault Refusal := .next (writeReg (.aren 0) width value s)

/-- `WR.AREN1` (R232): write `AREN[1]`. -/
def execWrAren1 (width value : Nat) (s : State) : Host.Outcome State Fault Refusal := .next (writeReg (.aren 1) width value s)

/-- `WR.AFEN0` (R233): write `AFEN[0]`. -/
def execWrAfen0 (width value : Nat) (s : State) : Host.Outcome State Fault Refusal := .next (writeReg (.afen 0) width value s)

/-- `WR.AFEN1` (R234): write `AFEN[1]`. -/
def execWrAfen1 (width value : Nat) (s : State) : Host.Outcome State Fault Refusal := .next (writeReg (.afen 1) width value s)

/-- `WR.PUD` (R235): write `PUD`. -/
def execWrPud (width value : Nat) (s : State) : Host.Outcome State Fault Refusal := .next (writeReg (.pud) width value s)

/-- `WR.PUDCLK0` (R236): write `PUDCLK[0]`. -/
def execWrPudclk0 (width value : Nat) (s : State) : Host.Outcome State Fault Refusal := .next (writeReg (.pudclk 0) width value s)

/-- `WR.PUDCLK1` (R237): write `PUDCLK[1]`. -/
def execWrPudclk1 (width value : Nat) (s : State) : Host.Outcome State Fault Refusal := .next (writeReg (.pudclk 1) width value s)

/-- `WR.LEVEL0` (R248): bad offset 0x34. -/
def execWrLevel0 (width value : Nat) (s : State) : Host.Outcome State Fault Refusal := .next (writeBad 0x34 width value s)

/-- `WR.LEVEL1` (R249): bad offset 0x38. -/
def execWrLevel1 (width value : Nat) (s : State) : Host.Outcome State Fault Refusal := .next (writeBad 0x38 width value s)

/-- `WR.RSVD_18` (R250): bad offset 0x18. -/
def execWrRsvd18 (width value : Nat) (s : State) : Host.Outcome State Fault Refusal := .next (writeBad 0x18 width value s)

/-- `WR.RSVD_24` (R250): bad offset 0x24. -/
def execWrRsvd24 (width value : Nat) (s : State) : Host.Outcome State Fault Refusal := .next (writeBad 0x24 width value s)

/-- `WR.RSVD_30` (R250): bad offset 0x30. -/
def execWrRsvd30 (width value : Nat) (s : State) : Host.Outcome State Fault Refusal := .next (writeBad 0x30 width value s)

/-- `WR.RSVD_3C` (R250): bad offset 0x3c. -/
def execWrRsvd3c (width value : Nat) (s : State) : Host.Outcome State Fault Refusal := .next (writeBad 0x3c width value s)

/-- `WR.RSVD_48` (R250): bad offset 0x48. -/
def execWrRsvd48 (width value : Nat) (s : State) : Host.Outcome State Fault Refusal := .next (writeBad 0x48 width value s)

/-- `WR.RSVD_54` (R250): bad offset 0x54. -/
def execWrRsvd54 (width value : Nat) (s : State) : Host.Outcome State Fault Refusal := .next (writeBad 0x54 width value s)

/-- `WR.RSVD_60` (R250): bad offset 0x60. -/
def execWrRsvd60 (width value : Nat) (s : State) : Host.Outcome State Fault Refusal := .next (writeBad 0x60 width value s)

/-- `WR.RSVD_6C` (R250): bad offset 0x6c. -/
def execWrRsvd6c (width value : Nat) (s : State) : Host.Outcome State Fault Refusal := .next (writeBad 0x6c width value s)

/-- `WR.RSVD_78` (R250): bad offset 0x78. -/
def execWrRsvd78 (width value : Nat) (s : State) : Host.Outcome State Fault Refusal := .next (writeBad 0x78 width value s)

/-- `WR.RSVD_84` (R250): bad offset 0x84. -/
def execWrRsvd84 (width value : Nat) (s : State) : Host.Outcome State Fault Refusal := .next (writeBad 0x84 width value s)

/-- `WR.RSVD_90` (R250): bad offset 0x90. -/
def execWrRsvd90 (width value : Nat) (s : State) : Host.Outcome State Fault Refusal := .next (writeBad 0x90 width value s)

/-- `WR.RSVD_A0` (R250): bad offset 0xa0. -/
def execWrRsvda0 (width value : Nat) (s : State) : Host.Outcome State Fault Refusal := .next (writeBad 0xa0 width value s)

/-- `WR.RSVD_B0` (R250): bad offset 0xb0. -/
def execWrRsvdb0 (width value : Nat) (s : State) : Host.Outcome State Fault Refusal := .next (writeBad 0xb0 width value s)

/-- `WR.UNDEF` (R251): any remaining offset. -/
def execWrUndef (offset width value : Nat) (s : State) : Host.Outcome State Fault Refusal := .next (writeBad offset width value s)

/-- `WR.BAD` (R247): any offset not in the writable list. -/
def execWrBad (offset width value : Nat) (s : State) : Host.Outcome State Fault Refusal := .next (writeBad offset width value s)

end Sys2Proof.Machine
end

