-- ==== Sys2Proof/Machine/Dispatch.lean ====
section
/-! DEFINITION. One arm per operation of the table. -/

namespace Sys2Proof.Machine

def exec (i : Instr) (s : State) : Host.Outcome State Fault Refusal :=
  match i with
  | .rdFsel0 width => Sys2Proof.Machine.execRdFsel0 width s
  | .rdFsel1 width => Sys2Proof.Machine.execRdFsel1 width s
  | .rdFsel2 width => Sys2Proof.Machine.execRdFsel2 width s
  | .rdFsel3 width => Sys2Proof.Machine.execRdFsel3 width s
  | .rdFsel4 width => Sys2Proof.Machine.execRdFsel4 width s
  | .rdFsel5 width => Sys2Proof.Machine.execRdFsel5 width s
  | .rdLevel0 width => Sys2Proof.Machine.execRdLevel0 width s
  | .rdLevel1 width => Sys2Proof.Machine.execRdLevel1 width s
  | .rdEds0 width => Sys2Proof.Machine.execRdEds0 width s
  | .rdEds1 width => Sys2Proof.Machine.execRdEds1 width s
  | .rdRen0 width => Sys2Proof.Machine.execRdRen0 width s
  | .rdRen1 width => Sys2Proof.Machine.execRdRen1 width s
  | .rdFen0 width => Sys2Proof.Machine.execRdFen0 width s
  | .rdFen1 width => Sys2Proof.Machine.execRdFen1 width s
  | .rdHen0 width => Sys2Proof.Machine.execRdHen0 width s
  | .rdHen1 width => Sys2Proof.Machine.execRdHen1 width s
  | .rdLen0 width => Sys2Proof.Machine.execRdLen0 width s
  | .rdLen1 width => Sys2Proof.Machine.execRdLen1 width s
  | .rdAren0 width => Sys2Proof.Machine.execRdAren0 width s
  | .rdAren1 width => Sys2Proof.Machine.execRdAren1 width s
  | .rdAfen0 width => Sys2Proof.Machine.execRdAfen0 width s
  | .rdAfen1 width => Sys2Proof.Machine.execRdAfen1 width s
  | .rdPud width => Sys2Proof.Machine.execRdPud width s
  | .rdPudclk0 width => Sys2Proof.Machine.execRdPudclk0 width s
  | .rdPudclk1 width => Sys2Proof.Machine.execRdPudclk1 width s
  | .rdSet0 width => Sys2Proof.Machine.execRdSet0 width s
  | .rdSet1 width => Sys2Proof.Machine.execRdSet1 width s
  | .rdClr0 width => Sys2Proof.Machine.execRdClr0 width s
  | .rdClr1 width => Sys2Proof.Machine.execRdClr1 width s
  | .rdRsvd18 width => Sys2Proof.Machine.execRdRsvd18 width s
  | .rdRsvd24 width => Sys2Proof.Machine.execRdRsvd24 width s
  | .rdRsvd30 width => Sys2Proof.Machine.execRdRsvd30 width s
  | .rdRsvd3c width => Sys2Proof.Machine.execRdRsvd3c width s
  | .rdRsvd48 width => Sys2Proof.Machine.execRdRsvd48 width s
  | .rdRsvd54 width => Sys2Proof.Machine.execRdRsvd54 width s
  | .rdRsvd60 width => Sys2Proof.Machine.execRdRsvd60 width s
  | .rdRsvd6c width => Sys2Proof.Machine.execRdRsvd6c width s
  | .rdRsvd78 width => Sys2Proof.Machine.execRdRsvd78 width s
  | .rdRsvd84 width => Sys2Proof.Machine.execRdRsvd84 width s
  | .rdRsvd90 width => Sys2Proof.Machine.execRdRsvd90 width s
  | .rdRsvda0 width => Sys2Proof.Machine.execRdRsvda0 width s
  | .rdRsvdb0 width => Sys2Proof.Machine.execRdRsvdb0 width s
  | .rdUndef offset width => Sys2Proof.Machine.execRdUndef offset width s
  | .rdBad offset width => Sys2Proof.Machine.execRdBad offset width s
  | .wrFsel0 width value => Sys2Proof.Machine.execWrFsel0 width value s
  | .wrFsel1 width value => Sys2Proof.Machine.execWrFsel1 width value s
  | .wrFsel2 width value => Sys2Proof.Machine.execWrFsel2 width value s
  | .wrFsel3 width value => Sys2Proof.Machine.execWrFsel3 width value s
  | .wrFsel4 width value => Sys2Proof.Machine.execWrFsel4 width value s
  | .wrFsel5 width value => Sys2Proof.Machine.execWrFsel5 width value s
  | .wrSet0 width value => Sys2Proof.Machine.execWrSet0 width value s
  | .wrSet1 width value => Sys2Proof.Machine.execWrSet1 width value s
  | .wrClr0 width value => Sys2Proof.Machine.execWrClr0 width value s
  | .wrClr1 width value => Sys2Proof.Machine.execWrClr1 width value s
  | .wrEds0 width value => Sys2Proof.Machine.execWrEds0 width value s
  | .wrEds1 width value => Sys2Proof.Machine.execWrEds1 width value s
  | .wrRen0 width value => Sys2Proof.Machine.execWrRen0 width value s
  | .wrRen1 width value => Sys2Proof.Machine.execWrRen1 width value s
  | .wrFen0 width value => Sys2Proof.Machine.execWrFen0 width value s
  | .wrFen1 width value => Sys2Proof.Machine.execWrFen1 width value s
  | .wrHen0 width value => Sys2Proof.Machine.execWrHen0 width value s
  | .wrHen1 width value => Sys2Proof.Machine.execWrHen1 width value s
  | .wrLen0 width value => Sys2Proof.Machine.execWrLen0 width value s
  | .wrLen1 width value => Sys2Proof.Machine.execWrLen1 width value s
  | .wrAren0 width value => Sys2Proof.Machine.execWrAren0 width value s
  | .wrAren1 width value => Sys2Proof.Machine.execWrAren1 width value s
  | .wrAfen0 width value => Sys2Proof.Machine.execWrAfen0 width value s
  | .wrAfen1 width value => Sys2Proof.Machine.execWrAfen1 width value s
  | .wrPud width value => Sys2Proof.Machine.execWrPud width value s
  | .wrPudclk0 width value => Sys2Proof.Machine.execWrPudclk0 width value s
  | .wrPudclk1 width value => Sys2Proof.Machine.execWrPudclk1 width value s
  | .wrLevel0 width value => Sys2Proof.Machine.execWrLevel0 width value s
  | .wrLevel1 width value => Sys2Proof.Machine.execWrLevel1 width value s
  | .wrRsvd18 width value => Sys2Proof.Machine.execWrRsvd18 width value s
  | .wrRsvd24 width value => Sys2Proof.Machine.execWrRsvd24 width value s
  | .wrRsvd30 width value => Sys2Proof.Machine.execWrRsvd30 width value s
  | .wrRsvd3c width value => Sys2Proof.Machine.execWrRsvd3c width value s
  | .wrRsvd48 width value => Sys2Proof.Machine.execWrRsvd48 width value s
  | .wrRsvd54 width value => Sys2Proof.Machine.execWrRsvd54 width value s
  | .wrRsvd60 width value => Sys2Proof.Machine.execWrRsvd60 width value s
  | .wrRsvd6c width value => Sys2Proof.Machine.execWrRsvd6c width value s
  | .wrRsvd78 width value => Sys2Proof.Machine.execWrRsvd78 width value s
  | .wrRsvd84 width value => Sys2Proof.Machine.execWrRsvd84 width value s
  | .wrRsvd90 width value => Sys2Proof.Machine.execWrRsvd90 width value s
  | .wrRsvda0 width value => Sys2Proof.Machine.execWrRsvda0 width value s
  | .wrRsvdb0 width value => Sys2Proof.Machine.execWrRsvdb0 width value s
  | .wrUndef offset width value => Sys2Proof.Machine.execWrUndef offset width value s
  | .wrBad offset width value => Sys2Proof.Machine.execWrBad offset width value s
  | .line pin level => Sys2Proof.Machine.execLine pin level s
  | .reset => Sys2Proof.Machine.execReset s
  | .init attach => Sys2Proof.Machine.execInit attach s
  | .snapsave => Sys2Proof.Machine.execSnapsave s
  | .snapload fields => Sys2Proof.Machine.execSnapload fields s
  | .fn p => Sys2Proof.Machine.execFn p s
  | .derive => Sys2Proof.Machine.execDerive s
  | .push => Sys2Proof.Machine.execPush s
  | .pull => Sys2Proof.Machine.execPull s

end Sys2Proof.Machine
end

