-- ==== Sys2Proof/WellFormed.lean ====
section
/-! DEFINITION. When an operation is one that the decoder can answer. The bounded operands (pins, register words) are right by
their types; what is left is the offset of the four rows that carry one, and the width of nothing: R78 admits any width. -/

namespace Sys2Proof

/-- The offsets that the register map lists (R72): 29 registers and the thirteen reserved offsets of R121. -/
def listedOffsets : List Nat :=
  [0x00, 0x04, 0x08, 0x0c, 0x10, 0x14, 0x18, 0x1c, 0x20, 0x24, 0x28, 0x2c, 0x30, 0x34] ++
  [0x38, 0x3c, 0x40, 0x44, 0x48, 0x4c, 0x50, 0x54, 0x58, 0x5c, 0x60, 0x64, 0x68, 0x6c] ++
  [0x70, 0x74, 0x78, 0x7c, 0x80, 0x84, 0x88, 0x8c, 0x90, 0x94, 0x98, 0x9c, 0xa0, 0xb0]

/-- `RD.BAD` and `WR.BAD` are decoded only for offsets inside the window that no row of their own covers (R117, R196, R247);
`RD.UNDEF` and `WR.UNDEF` only for offsets at or above the window, which have no selector (R113, R202, R251). Every other
operation is well-formed. -/
def WellFormed (i : Instr) : Bool :=
  match i with
  | .rdBad offset _ => decide (offset < Config.MMIO_WINDOW) && !listedOffsets.contains offset
  | .wrBad offset _ _ => decide (offset < Config.MMIO_WINDOW) && !listedOffsets.contains offset
  | .rdUndef offset _ => decide (Config.MMIO_WINDOW ≤ offset)
  | .wrUndef offset _ _ => decide (Config.MMIO_WINDOW ≤ offset)
  | _ => true

/-- An operation that an event selects (R110): all but the four internal sub-operations. -/
def Selectable (i : Instr) : Bool :=
  match i with
  | .fn _ | .derive | .push | .pull => false
  | _ => true

end Sys2Proof
end

