-- ==== Sys2Proof/Decode.lean ====
section
/-! DEFINITION. Decode: from an event (R110), or from the selector and operand words of R112 to R116, to an operation;
total, rejecting by name. The lookup of an offset is by exact equality in the list of the direction (R117). The encoder,
written from the same table, stands after it. -/

namespace Sys2Proof

/-- Why an event decodes to no operation. -/
inductive DecodeError where
  | pinOutOfRange (pin : Nat)
  | noFormat (sel : Nat)
  | snapshotLength (n : Nat)
deriving DecidableEq, Repr

/-- The entry of a table at a key, by exact equality of the whole key (R117). -/
def tableAt {α : Type} : List (Nat × α) → Nat → Option α
  | [], _ => none
  | (k, x) :: rows, key => if key = k then some x else tableAt rows key

/-- The offsets that select a bus read of their own: the readable registers (R118), the write-only registers (R197 to R200)
and the reserved offsets (R201). -/
def readRows : List (Nat × (Nat → Instr)) :=
  [(0x00, Instr.rdFsel0), (0x04, Instr.rdFsel1), (0x08, Instr.rdFsel2), (0x0c, Instr.rdFsel3), (0x10, Instr.rdFsel4), (0x14, Instr.rdFsel5)] ++
  [(0x18, Instr.rdRsvd18), (0x1c, Instr.rdSet0), (0x20, Instr.rdSet1), (0x24, Instr.rdRsvd24), (0x28, Instr.rdClr0), (0x2c, Instr.rdClr1)] ++
  [(0x30, Instr.rdRsvd30), (0x34, Instr.rdLevel0), (0x38, Instr.rdLevel1), (0x3c, Instr.rdRsvd3c), (0x40, Instr.rdEds0), (0x44, Instr.rdEds1)] ++
  [(0x48, Instr.rdRsvd48), (0x4c, Instr.rdRen0), (0x50, Instr.rdRen1), (0x54, Instr.rdRsvd54), (0x58, Instr.rdFen0), (0x5c, Instr.rdFen1)] ++
  [(0x60, Instr.rdRsvd60), (0x64, Instr.rdHen0), (0x68, Instr.rdHen1), (0x6c, Instr.rdRsvd6c), (0x70, Instr.rdLen0), (0x74, Instr.rdLen1)] ++
  [(0x78, Instr.rdRsvd78), (0x7c, Instr.rdAren0), (0x80, Instr.rdAren1), (0x84, Instr.rdRsvd84), (0x88, Instr.rdAfen0), (0x8c, Instr.rdAfen1)] ++
  [(0x90, Instr.rdRsvd90), (0x94, Instr.rdPud), (0x98, Instr.rdPudclk0), (0x9c, Instr.rdPudclk1), (0xa0, Instr.rdRsvda0), (0xb0, Instr.rdRsvdb0)]

/-- The offsets that select a bus write of their own: the writable registers (R119), the level registers (R248, R249) and the
reserved offsets (R250). -/
def writeRows : List (Nat × (Nat → Nat → Instr)) :=
  [(0x00, Instr.wrFsel0), (0x04, Instr.wrFsel1), (0x08, Instr.wrFsel2), (0x0c, Instr.wrFsel3), (0x10, Instr.wrFsel4), (0x14, Instr.wrFsel5)] ++
  [(0x18, Instr.wrRsvd18), (0x1c, Instr.wrSet0), (0x20, Instr.wrSet1), (0x24, Instr.wrRsvd24), (0x28, Instr.wrClr0), (0x2c, Instr.wrClr1)] ++
  [(0x30, Instr.wrRsvd30), (0x34, Instr.wrLevel0), (0x38, Instr.wrLevel1), (0x3c, Instr.wrRsvd3c), (0x40, Instr.wrEds0), (0x44, Instr.wrEds1)] ++
  [(0x48, Instr.wrRsvd48), (0x4c, Instr.wrRen0), (0x50, Instr.wrRen1), (0x54, Instr.wrRsvd54), (0x58, Instr.wrFen0), (0x5c, Instr.wrFen1)] ++
  [(0x60, Instr.wrRsvd60), (0x64, Instr.wrHen0), (0x68, Instr.wrHen1), (0x6c, Instr.wrRsvd6c), (0x70, Instr.wrLen0), (0x74, Instr.wrLen1)] ++
  [(0x78, Instr.wrRsvd78), (0x7c, Instr.wrAren0), (0x80, Instr.wrAren1), (0x84, Instr.wrRsvd84), (0x88, Instr.wrAfen0), (0x8c, Instr.wrAfen1)] ++
  [(0x90, Instr.wrRsvd90), (0x94, Instr.wrPud), (0x98, Instr.wrPudclk0), (0x9c, Instr.wrPudclk1), (0xa0, Instr.wrRsvda0), (0xb0, Instr.wrRsvdb0)]

/-- Decode of a bus read (R117, R120): a listed offset selects its own row; any other offset inside the window is the catch-all
row RD.BAD, and one at or above `MMIO_WINDOW`, which has no selector, is RD.UNDEF (R113, R202; notes/assumptions/8.md). -/
def decodeRead (offset width : Nat) : Instr :=
  match tableAt readRows offset with
  | some row => row width
  | none => if offset < Config.MMIO_WINDOW then .rdBad offset width else .rdUndef offset width

/-- Decode of a bus write, in the same way (R117, R120, R114, R251). -/
def decodeWrite (offset width value : Nat) : Instr :=
  match tableAt writeRows offset with
  | some row => row width value
  | none => if offset < Config.MMIO_WINDOW then .wrBad offset width value else .wrUndef offset width value

/-- Decode of a line event: the level is normalised (R129), a pin of 54 or more is refused (R262). -/
def decodeLine (pin : Nat) (level : Int) : Except DecodeError Instr :=
  if h : pin < 54 then .ok (.line ⟨pin, h⟩ (decide (level ≠ 0))) else .error (.pinOutOfRange pin)

/-- The 29 words of a snapshot in the order in which R50 lists the registers, or none for any other number of words. -/
def snapOfWords : List Word → Option SnapFields
  | [f0, f1, f2, f3, f4, f5, s0, s1, c0, c1, l0, l1, e0, e1, r0, r1, g0, g1, h0, h1, n0, n1, a0, a1, b0, b1, pud, k0, k1] =>
    some
      { fsel := ⟨f0, f1, f2, f3, f4, f5⟩, gpset := ⟨s0, s1⟩, gpclr := ⟨c0, c1⟩, level := ⟨l0, l1⟩, eds := ⟨e0, e1⟩
        ren := ⟨r0, r1⟩, fen := ⟨g0, g1⟩, hen := ⟨h0, h1⟩, len := ⟨n0, n1⟩, aren := ⟨a0, a1⟩, afen := ⟨b0, b1⟩
        pud := pud, pudclk := ⟨k0, k1⟩ }
  | _ => none

/-- The 29 words of a snapshot in the order in which R50 lists the registers. -/
def wordsOfSnap (s : SnapFields) : List Word :=
  [s.fsel.f0, s.fsel.f1, s.fsel.f2, s.fsel.f3, s.fsel.f4, s.fsel.f5, s.gpset.r0, s.gpset.r1, s.gpclr.r0, s.gpclr.r1,
   s.level.r0, s.level.r1, s.eds.r0, s.eds.r1, s.ren.r0, s.ren.r1, s.fen.r0, s.fen.r1, s.hen.r0, s.hen.r1,
   s.len.r0, s.len.r1, s.aren.r0, s.aren.r1, s.afen.r0, s.afen.r1, s.pud, s.pudclk.r0, s.pudclk.r1]

/-- Decode of a `SNAPLOAD`: exactly 29 words (R311). -/
def decodeSnapLoad (words : List Word) : Except DecodeError Instr :=
  match snapOfWords words with
  | some fields => .ok (.snapload fields)
  | none => .error (.snapshotLength words.length)

/-- Decode of an event (R110, R117). -/
def decode : Event → Except DecodeError Instr
  | .busRead offset width => .ok (decodeRead offset width)
  | .busWrite offset width value => .ok (decodeWrite offset width value)
  | .line pin level => decodeLine pin level
  | .reset => .ok .reset
  | .init attach => .ok (.init attach)
  | .snapSave => .ok .snapsave
  | .snapLoad fields => decodeSnapLoad fields
  | .unlisted sel => .error (.noFormat sel)

/-! The packed form: the 11-bit selector (R112 to R116) and the operand words beside it. The spec gives the operands no
layout: one word each, in the order in which R110 lists them, is the model's (DESIGN CHOICE, notes/assumptions/9.md), and a
word that is not there reads 0. -/

/-- Operand word `k`. -/
def operand (ops : List Nat) (k : Nat) : Nat := ops.getD k 0

/-- Operand word `k` as a 32-bit value. -/
def operandWord (ops : List Nat) (k : Nat) : Word := BitVec.ofNat 32 (operand ops k)

/-- The ten words of `SHM_INIT` from operand words 1 to 10, in the record's order (R76). -/
def shmWordsOf (ops : List Nat) : ShmWords :=
  let w := operandWord ops
  { fsel := ⟨w 1, w 2, w 3, w 4, w 5, w 6⟩, level := ⟨w 7, w 8⟩, outstate := ⟨w 9, w 10⟩ }

/-- The environment's answer to an attach from operand word 0: 0 the segment was found, 1 it was created with the ten words
that follow, 2 the attach failed (notes/assumptions/9.md). -/
def attachOf (ops : List Nat) : Option Attach :=
  match operand ops 0 with
  | 0 => some .found
  | 1 => some (.created (shmWordsOf ops))
  | 2 => some .failed
  | _ => none

/-- The control event of code `sel[1:0]` when `sel[8:2]` is 0 (R116). -/
def unpackControl (sel : Nat) (ops : List Nat) : Event :=
  match sel % 512 with
  | 0 => .reset
  | 1 => match attachOf ops with
    | some attach => .init attach
    | none => .unlisted sel
  | 2 => .snapSave
  | 3 => .snapLoad ((List.range 29).map (operandWord ops))
  | _ => .unlisted sel

/-- The event that a selector and its operand words stand for (R112 to R116). The two low fields of a bus transaction are taken
as one 9-bit offset, so that a selector with `sel[8]` set is an offset at or above the window (notes/assumptions/8.md). -/
def unpack (sel : Nat) (ops : List Nat) : Event :=
  match sel / 512 with
  | 0 => .busRead (sel % 512) (operand ops 0)
  | 1 => .busWrite (sel % 512) (operand ops 0) (operand ops 1)
  | 2 => if sel % 512 < 128 then .line (sel % 64) ((sel / 64 % 2 : Nat) : Int) else .unlisted sel
  | 3 => unpackControl sel ops
  | _ => .unlisted sel

/-- Decode of a selector and its operand words. -/
def decodeWords (sel : Nat) (ops : List Nat) : Except DecodeError Instr :=
  decode (unpack sel ops)

/-- Width in bits of the first unit of an event laid out as one number: the 11-bit selector in two whole bytes. -/
def selBits : Nat := 16

/-- The operand words of an event laid out as one number: 64 bits each above the selector (notes/assumptions/9.md). -/
def operandsOfBits (w : Nat) : List Nat :=
  (List.range 29).map (fun k => w >>> (selBits + 64 * k) % 2 ^ 64)

/-- The event of an event laid out as one number, bit 0 the least significant bit of the selector. -/
def eventOfBits (w : Nat) : Event :=
  unpack (w % 2 ^ selBits) (operandsOfBits w)

/-- The operation the decoder reads from an event whose bits are `w`; the number of bits does not matter, bits above it being 0. -/
def decodeTableWord (_nbits w : Nat) : Option Instr :=
  match decode (eventOfBits w) with
  | .ok i => some i
  | .error _ => none

/-- The ten words of `SHM_INIT` as operand words, in the record's order (R76). -/
def wordsOfShm (m : ShmWords) : List Nat :=
  [m.fsel.f0, m.fsel.f1, m.fsel.f2, m.fsel.f3, m.fsel.f4, m.fsel.f5, m.level.r0, m.level.r1, m.outstate.r0,
    m.outstate.r1].map BitVec.toNat

/-- The operand words of `INIT`. -/
def attachWords : Attach → List Nat
  | .found => [0]
  | .created contents => 1 :: wordsOfShm contents
  | .failed => [2]

/-- The selector of a line event (R115, R261): `0x400 | level << 6 | pin`. -/
def lineSelector (pin : Pin) (level : Bool) : Nat := 0x400 + level.toNat * 64 + pin.val

/-- ENCODER: the selector and operand words of an operation, none for the rows that have no selector (`RD.UNDEF`, `WR.UNDEF` and
the four internal sub-operations, R110, R117). -/
def encode : Instr → Option (Nat × List Nat)
  | .rdFsel0 width => some (0x000, [width])
  | .rdFsel1 width => some (0x004, [width])
  | .rdFsel2 width => some (0x008, [width])
  | .rdFsel3 width => some (0x00c, [width])
  | .rdFsel4 width => some (0x010, [width])
  | .rdFsel5 width => some (0x014, [width])
  | .rdLevel0 width => some (0x034, [width])
  | .rdLevel1 width => some (0x038, [width])
  | .rdEds0 width => some (0x040, [width])
  | .rdEds1 width => some (0x044, [width])
  | .rdRen0 width => some (0x04c, [width])
  | .rdRen1 width => some (0x050, [width])
  | .rdFen0 width => some (0x058, [width])
  | .rdFen1 width => some (0x05c, [width])
  | .rdHen0 width => some (0x064, [width])
  | .rdHen1 width => some (0x068, [width])
  | .rdLen0 width => some (0x070, [width])
  | .rdLen1 width => some (0x074, [width])
  | .rdAren0 width => some (0x07c, [width])
  | .rdAren1 width => some (0x080, [width])
  | .rdAfen0 width => some (0x088, [width])
  | .rdAfen1 width => some (0x08c, [width])
  | .rdPud width => some (0x094, [width])
  | .rdPudclk0 width => some (0x098, [width])
  | .rdPudclk1 width => some (0x09c, [width])
  | .rdSet0 width => some (0x01c, [width])
  | .rdSet1 width => some (0x020, [width])
  | .rdClr0 width => some (0x028, [width])
  | .rdClr1 width => some (0x02c, [width])
  | .rdRsvd18 width => some (0x018, [width])
  | .rdRsvd24 width => some (0x024, [width])
  | .rdRsvd30 width => some (0x030, [width])
  | .rdRsvd3c width => some (0x03c, [width])
  | .rdRsvd48 width => some (0x048, [width])
  | .rdRsvd54 width => some (0x054, [width])
  | .rdRsvd60 width => some (0x060, [width])
  | .rdRsvd6c width => some (0x06c, [width])
  | .rdRsvd78 width => some (0x078, [width])
  | .rdRsvd84 width => some (0x084, [width])
  | .rdRsvd90 width => some (0x090, [width])
  | .rdRsvda0 width => some (0x0a0, [width])
  | .rdRsvdb0 width => some (0x0b0, [width])
  | .rdUndef _ _ => none
  | .rdBad offset width => some (offset, [width])
  | .wrFsel0 width value => some (0x200, [width, value])
  | .wrFsel1 width value => some (0x204, [width, value])
  | .wrFsel2 width value => some (0x208, [width, value])
  | .wrFsel3 width value => some (0x20c, [width, value])
  | .wrFsel4 width value => some (0x210, [width, value])
  | .wrFsel5 width value => some (0x214, [width, value])
  | .wrSet0 width value => some (0x21c, [width, value])
  | .wrSet1 width value => some (0x220, [width, value])
  | .wrClr0 width value => some (0x228, [width, value])
  | .wrClr1 width value => some (0x22c, [width, value])
  | .wrEds0 width value => some (0x240, [width, value])
  | .wrEds1 width value => some (0x244, [width, value])
  | .wrRen0 width value => some (0x24c, [width, value])
  | .wrRen1 width value => some (0x250, [width, value])
  | .wrFen0 width value => some (0x258, [width, value])
  | .wrFen1 width value => some (0x25c, [width, value])
  | .wrHen0 width value => some (0x264, [width, value])
  | .wrHen1 width value => some (0x268, [width, value])
  | .wrLen0 width value => some (0x270, [width, value])
  | .wrLen1 width value => some (0x274, [width, value])
  | .wrAren0 width value => some (0x27c, [width, value])
  | .wrAren1 width value => some (0x280, [width, value])
  | .wrAfen0 width value => some (0x288, [width, value])
  | .wrAfen1 width value => some (0x28c, [width, value])
  | .wrPud width value => some (0x294, [width, value])
  | .wrPudclk0 width value => some (0x298, [width, value])
  | .wrPudclk1 width value => some (0x29c, [width, value])
  | .wrLevel0 width value => some (0x234, [width, value])
  | .wrLevel1 width value => some (0x238, [width, value])
  | .wrRsvd18 width value => some (0x218, [width, value])
  | .wrRsvd24 width value => some (0x224, [width, value])
  | .wrRsvd30 width value => some (0x230, [width, value])
  | .wrRsvd3c width value => some (0x23c, [width, value])
  | .wrRsvd48 width value => some (0x248, [width, value])
  | .wrRsvd54 width value => some (0x254, [width, value])
  | .wrRsvd60 width value => some (0x260, [width, value])
  | .wrRsvd6c width value => some (0x26c, [width, value])
  | .wrRsvd78 width value => some (0x278, [width, value])
  | .wrRsvd84 width value => some (0x284, [width, value])
  | .wrRsvd90 width value => some (0x290, [width, value])
  | .wrRsvda0 width value => some (0x2a0, [width, value])
  | .wrRsvdb0 width value => some (0x2b0, [width, value])
  | .wrUndef _ _ _ => none
  | .wrBad offset width value => some (0x200 + offset, [width, value])
  | .line pin level => some (lineSelector pin level, [])
  | .reset => some (0x600, [])
  | .init attach => some (0x601, attachWords attach)
  | .snapsave => some (0x602, [])
  | .snapload fields => some (0x603, (wordsOfSnap fields).map BitVec.toNat)
  | .fn _ => none
  | .derive => none
  | .push => none
  | .pull => none

/-- The event an operation stands for: that of its selector and operand words, or a bus transaction at an offset that has no
selector (R113, R114); none for the internal sub-operations, which no event selects (R110). -/
def eventOf (i : Instr) : Option Event :=
  match encode i with
  | some (sel, ops) => some (unpack sel ops)
  | none =>
    match i with
    | .rdUndef offset width => some (.busRead offset width)
    | .wrUndef offset width value => some (.busWrite offset width value)
    | _ => none

end Sys2Proof
end

