-- ==== Sys2Proof/Machine/Fetch.lean ====
section
/-! DEFINITION. How the next event reaches the block. The block has no program counter and fetches nothing (10_state.md R22): what it
does next is the next entry of the host's serialised order (00_scope.md R13). -/

namespace Sys2Proof.Machine

/-- The refusal that answers an event the decoder rejects. -/
def refusalOf : DecodeError → Refusal
  | .pinOutOfRange pin => .pinOutOfRange pin
  | .noFormat sel => .noFormat sel
  | .snapshotLength n => .snapshotLength n

/-- The state with the inputs still to come replaced. -/
def State.withPending (s : State) (rest : List Input) : State := { s with pending := rest }

/-- The state in which an event can come next. An `INIT` comes once, before everything else (R301, R302), so the state in which it
comes next is one in which none has been performed; every other event may come at any time. -/
def State.before (s : State) (e : Event) : State :=
  match e with
  | .init _ => { s with inited := false }
  | _ => s

/-- The event laid out as the number `w` put before every other pending input (notes/assumptions/7.md). -/
def State.presentBits (s : State) (w : Nat) : State :=
  (s.before (eventOfBits w)).withPending (.op (eventOfBits w) :: s.pending)

end Sys2Proof.Machine
end

