-- ==== Sys2Proof/Machine/Step.lean ====
section
/-! DEFINITION. One step: the next pending input is performed whole (00_scope.md R6, R13). -/

namespace Sys2Proof.Machine

/-- One step. With nothing pending the block is idle and nothing changes (R22, R285). An access of the external agent is
performed on the shared record (R92). An operation of the device is decoded and executed to completion (R82); an event that
decodes to nothing is refused (R278). -/
def step (s : State) : Host.Outcome State Fault Refusal :=
  match s.pending with
  | [] => .next s
  | .ext a :: rest => .next ((s.withPending rest).extAccess a)
  | .op e :: rest =>
    match decode e with
    | .ok i => exec i (s.withPending rest)
    | .error err => .refused (refusalOf err)

/-- The state in which the event laid out as `w` is the next one the block meets (notes/assumptions/7.md). -/
def State.withFetchWord (s : State) (_nbits w : Nat) : State := s.presentBits w

end Sys2Proof.Machine
end

