-- ==== Sys2Proof/Machine/RegisterMap.lean ====
section
/-! DEFINITION. The register map as one list of descriptors (20_memory.md R72; 30_encoding.md R117 to R120), and the common path of every
bus read and every bus write written over it (R170, R210). The arms of `exec` do not use it: that the 88 rows of the table say
the same is a statement (Obligations.BusReadsFollowTheCommonPath, Obligations.BusWritesFollowTheCommonPath). -/

namespace Sys2Proof.Machine

/-- The guest's rights at an offset (R72). -/
inductive Access where
  | readWrite
  | readOnly
  | writeOnly
deriving DecidableEq, Repr

/-- One descriptor of the register map: the offset of the register's first byte, the register, the guest's rights (R72, R117). -/
structure RegDesc where
  offset : Nat
  reg : Reg
  access : Access
deriving DecidableEq, Repr

/-- The 29 registers at their offsets (R72). -/
def registerMap : List RegDesc :=
  [⟨0x00, .fsel 0, .readWrite⟩, ⟨0x04, .fsel 1, .readWrite⟩, ⟨0x08, .fsel 2, .readWrite⟩, ⟨0x0c, .fsel 3, .readWrite⟩,
   ⟨0x10, .fsel 4, .readWrite⟩, ⟨0x14, .fsel 5, .readWrite⟩, ⟨0x1c, .gpset 0, .writeOnly⟩, ⟨0x20, .gpset 1, .writeOnly⟩,
   ⟨0x28, .gpclr 0, .writeOnly⟩, ⟨0x2c, .gpclr 1, .writeOnly⟩, ⟨0x34, .level 0, .readOnly⟩, ⟨0x38, .level 1, .readOnly⟩,
   ⟨0x40, .eds 0, .readWrite⟩, ⟨0x44, .eds 1, .readWrite⟩, ⟨0x4c, .ren 0, .readWrite⟩, ⟨0x50, .ren 1, .readWrite⟩,
   ⟨0x58, .fen 0, .readWrite⟩, ⟨0x5c, .fen 1, .readWrite⟩, ⟨0x64, .hen 0, .readWrite⟩, ⟨0x68, .hen 1, .readWrite⟩,
   ⟨0x70, .len 0, .readWrite⟩, ⟨0x74, .len 1, .readWrite⟩, ⟨0x7c, .aren 0, .readWrite⟩, ⟨0x80, .aren 1, .readWrite⟩,
   ⟨0x88, .afen 0, .readWrite⟩, ⟨0x8c, .afen 1, .readWrite⟩, ⟨0x94, .pud, .readWrite⟩, ⟨0x98, .pudclk 0, .readWrite⟩,
   ⟨0x9c, .pudclk 1, .readWrite⟩]

/-- The register of the first descriptor at an offset whose rights allow the access. -/
def registerAt (allowed : Access → Bool) : List RegDesc → Nat → Option Reg
  | [], _ => none
  | d :: rest, offset => if d.offset = offset && allowed d.access then some d.reg else registerAt allowed rest offset

/-- The register a bus read of an offset returns, none at a bad offset (R118, R120). -/
def readable (offset : Nat) : Option Reg := registerAt (fun a => a != .writeOnly) registerMap offset

/-- The register a bus write of an offset replaces, none at a bad offset (R119, R120). -/
def writable (offset : Nat) : Option Reg := registerAt (fun a => a != .readOnly) registerMap offset

/-- `RD(offset, width)` (R170). -/
def busReadPath (offset : Nat) (s : State) : State :=
  let s := s.pull
  match readable offset with
  | some reg => s.deliver (.busData (zext (RegFile.read s.regs reg)))
  | none => (s.emit (.badOffsetRead offset)).deliver (.busData 0)

/-- The state of a bus write when its derive pass is about to run: counted, and the target assigned or the record appended (R210). -/
def beforeDerive (offset value : Nat) (s : State) : State :=
  let s := s.countWrite
  match writable offset with
  | some reg => s.withRegs (RegFile.write s.regs reg (trunc32 value))
  | none => s.emit (.badOffsetWrite offset (trunc32 value))

/-- Whether a bus write of an offset runs the derive pass and the push (R210, R247). -/
def runsPasses (offset : Nat) (s : State) : Bool := (writable offset).isSome || s.params.postOnBadWrite

/-- `WR(offset, width, value)` (R210). -/
def busWritePath (offset value : Nat) (s : State) : State :=
  let t := beforeDerive offset value s
  (if runsPasses offset s then t.derive.push else t).deliver .nothing

end Sys2Proof.Machine
end

