-- ==== Sys2Proof/Safety.lean ====
section
/-! DEFINITION. The terms the statements use: what the external agent alone does to the shared record, what a push, a pull and a bus write
leave, and the conditions that hold of every state a run without SNAPLOAD reaches. -/

namespace Sys2Proof.Machine

/-- The state after the external agent's next `n` turns, the device doing nothing (R90 to R92). -/
def turns : Nat → State → State
  | 0, s => s
  | n + 1, s => turns n s.extTurn

/-- How many pins are Input: as many loads a pull makes (R163). -/
def inputCount (f : FselRegs) : Nat := pins.countP (isInput f)

/-- How many pins that come before `p` in an order are Input: as many loads a pull has made when it comes to `p` (R163). -/
def inputsBefore (order : List Pin) (f : FselRegs) (p : Pin) : Nat := (order.takeWhile (fun q => decide (q ≠ p))).countP (isInput f)

/-- A pin's place in a bank holds no pin: bits 31:22 of register 1 (R28). -/
def noPinAt (r : Fin 2) (j : Nat) : Prop := r = 1 ∧ 22 ≤ j

/-- A pin is at a tie: it is Output and both its one-shot bits are 1 (R151). -/
def atTie (f : RegFile) (p : Pin) : Prop :=
  isOutput f.fsel p = true ∧ Bank.bit f.gpset p = true ∧ Bank.bit f.gpclr p = true

/-- The external agent stores to the field in none of its next `n` turns. -/
def noStoreTo (f : ShmField) (n : Nat) (s : State) : Prop :=
  ∀ burst ∈ s.bursts.take n, ∀ a ∈ burst, ∀ v, a ≠ .store f v

/-- What a push leaves (R160, R161, R166): with an invalid bridge one record and nothing else; with a valid one the external agent's next
eight turns, each of the eight fields at the register's value unless the agent stored to it during the push, every byte outside
those fields as the agent alone leaves it, and nothing else changed. -/
structure PushEffect (s t : State) : Prop where
  skipped : s.bridgeValid = false → t = { s with diag := s.diag ++ [.bridgeSkipped .push] }
  fields : s.bridgeValid = true → ∀ f ∈ pushedFields, noStoreTo f 8 s → t.shmRead f = pushedValue s.regs f
  bytes : s.bridgeValid = true → ∀ a, (∀ f ∈ pushedFields, a < f.addr ∨ f.addr + 4 ≤ a) →
    Memory.get t.shm a = Memory.get (turns 8 s).shm a
  frame : s.bridgeValid = true →
    t = { s with shm := t.shm, extSeen := t.extSeen, bursts := s.bursts.drop 8, orders := s.orders.tail }

/-- What a pull leaves (R163, R166): with an invalid bridge one record and nothing else; with a valid one each Input pin's level bit is the
bit the shared field held when it was loaded for that pin, every other bit of LEVEL is kept, the shared record is as the external
agent's turns alone leave it, and nothing else changed. -/
structure PullEffect (s t : State) : Prop where
  skipped : s.bridgeValid = false → t = { s with diag := s.diag ++ [.bridgeSkipped .pull] }
  input : s.bridgeValid = true → ∀ p, isInput s.regs.fsel p = true →
    Bank.bit t.regs.level p =
      ((turns (inputsBefore (pullOrder s) s.regs.fsel p + 1) s).shmRead (.level (bankReg p))).getLsbD (bankBit p)
  kept : s.bridgeValid = true → ∀ p, isInput s.regs.fsel p = false → Bank.bit t.regs.level p = Bank.bit s.regs.level p
  noPin : s.bridgeValid = true → ∀ r j, noPinAt r j →
    (Bank.get t.regs.level r).getLsbD j = (Bank.get s.regs.level r).getLsbD j
  frame : s.bridgeValid = true →
    t = { turns (inputCount s.regs.fsel) s with regs := { s.regs with level := t.regs.level }, pullOrders := s.pullOrders.tail }

/-- What a bus read leaves (R170): the effect of its pull, then the records it appends and the data it delivers; nothing else. -/
def ReadEffect (s t : State) (data : BitVec 64) (records : List Diag) : Prop :=
  ∃ u, PullEffect s u ∧ t = { u with diag := u.diag ++ records, result := .busData data }

/-- What the derive pass leaves of a register file (R150, R152, R155): the three banks in mask form, everything else unchanged. -/
structure DeriveEffect (tieClearsClr : Bool) (f g : RegFile) : Prop where
  banks : ∀ r, (Bank.get g.outstate r, Bank.get g.gpset r, Bank.get g.gpclr r) =
    deriveMasked tieClearsClr (outMask f.fsel r) (Bank.get f.gpset r) (Bank.get f.gpclr r) (Bank.get f.outstate r)
  frame : g = { f with outstate := g.outstate, gpset := g.gpset, gpclr := g.gpclr }

/-- What a bus write of a writable register leaves (R210): the register file counted and assigned, then derived, then pushed, and no
result. `g` is the register file the derive pass begins with. -/
def WriteEffect (reg : Reg) (value : Nat) (s t : State) : Prop :=
  ∃ g h, g = RegFile.write { s.regs with wcount := s.regs.wcount + 1 } reg (trunc32 value) ∧
    DeriveEffect s.params.tieClearsClr g h ∧
    PushEffect { s with regs := h, result := .nothing } t

/-- What a bus write of a bad offset leaves (R247): counted, one record, the value stored nowhere; then the derive pass and the push, if
`P_POST_ON_BAD_WRITE` says so, and no result. -/
def BadWriteEffect (offset value : Nat) (s t : State) : Prop :=
  ∃ u : State,
    u = { s with regs := { s.regs with wcount := s.regs.wcount + 1 },
                 diag := s.diag ++ [.badOffsetWrite offset (trunc32 value)], result := .nothing } ∧
    (s.params.postOnBadWrite = true →
      ∃ h, DeriveEffect s.params.tieClearsClr u.regs h ∧ PushEffect { u with regs := h } t) ∧
    (s.params.postOnBadWrite = false → t = u)

/-- Every Output pin has both its one-shot bits 0 (the true part of the source's invariant, R51). -/
def OneShotsConsumed (f : RegFile) : Prop :=
  ∀ p, isOutput f.fsel p = true → Bank.bit f.gpset p = false ∧ Bank.bit f.gpclr p = false

/-- The bits of OUTSTATE and LEVEL that belong to no pin are 0 (R55). -/
def NoPinBitsClear (f : RegFile) : Prop :=
  (∀ j, 22 ≤ j → f.outstate.r1.getLsbD j = false) ∧ (∀ j, 22 ≤ j → f.level.r1.getLsbD j = false)

/-- The next input is a `SNAPLOAD`. -/
def nextIsSnapLoad (s : State) : Bool :=
  match s.pending with
  | .op (.snapLoad _) :: _ => true
  | _ => false

/-- A run's state in which `P_TIE_CLEARS_CLR` is 1, `INIT` has been performed, and the one-shot bits of Output pins are consumed: it holds after
`RESET` and every step but a `SNAPLOAD` keeps it (R51, R53, R156). -/
def Settled (s : State) : Prop :=
  s.inited = true ∧ s.params.tieClearsClr = true ∧ OneShotsConsumed s.regs

/-- `INIT` has been performed and the no-pin bits of OUTSTATE and LEVEL are 0 (R55). -/
def NoPinClear (s : State) : Prop := s.inited = true ∧ NoPinBitsClear s.regs

/-- The shared record is in its canonical form. -/
def Canonical (s : State) : Prop := Memory.wf s.shm = true

/-- A row of the table that reads a register (R170): the selector `sel` with the width as its operand word
(notes/assumptions/9.md) is the operation `op`, and in every state `op` completes with the register's value, as `value` gives it from the state the pull leaves, and appends no record of its own. -/
def ReadRow (sel : Nat) (op : Nat → Instr) (value : RegFile → Word) : Prop :=
  (∀ ops, decodeWords sel ops = .ok (op (operand ops 0))) ∧
  ∀ width s, ∃ t, exec (op width) s = .next t ∧ ReadEffect s t (zext (value t.regs)) []

/-- A row that reads a register no pull changes: `ReadRow`, and the value is the register's before the read. -/
def StoredReadRow (sel : Nat) (op : Nat → Instr) (value : RegFile → Word) : Prop :=
  ReadRow sel op value ∧
  ∀ width s, ∃ t, exec (op width) s = .next t ∧ t.result = .busData (zext (value s.regs)) ∧ value t.regs = value s.regs

/-- A row that reads a bad offset (R196): the pull, one record, data 0. -/
def BadReadRow (offset : Nat) (op : Nat → Instr) : Prop :=
  (∀ ops, decodeWords offset ops = .ok (op (operand ops 0))) ∧
  ∀ width s, ∃ t, exec (op width) s = .next t ∧ ReadEffect s t 0 [.badOffsetRead offset]

/-- A row that writes a register (R210): the selector `sel` with the width and the value as its operand words
(notes/assumptions/9.md) is the operation `op`, and in every state `op` completes with `WriteEffect`. -/
def WriteRow (sel : Nat) (op : Nat → Nat → Instr) (reg : Reg) : Prop :=
  (∀ ops, decodeWords sel ops = .ok (op (operand ops 0) (operand ops 1))) ∧
  ∀ width value s, ∃ t, exec (op width value) s = .next t ∧ WriteEffect reg value s t

/-- A row that writes a storage-only register (R39): `WriteRow`, and where no one-shot bit of an Output pin is 1 no register but the target
and the write counter changes. -/
def StorageWriteRow (sel : Nat) (op : Nat → Nat → Instr) (reg : Reg) : Prop :=
  WriteRow sel op reg ∧
  ∀ width value s, ∃ t, exec (op width value) s = .next t ∧
    (OneShotsConsumed s.regs →
      t.regs = RegFile.write { s.regs with wcount := s.regs.wcount + 1 } reg (trunc32 value))

/-- A row that writes a bad offset (R247): `BadWriteEffect`, and where no one-shot bit of an Output pin is 1 no register but the write
counter changes. -/
def BadWriteRow (offset : Nat) (op : Nat → Nat → Instr) : Prop :=
  (∀ ops, decodeWords (0x200 + offset) ops = .ok (op (operand ops 0) (operand ops 1))) ∧
  ∀ width value s, ∃ t, exec (op width value) s = .next t ∧ BadWriteEffect offset value s t ∧
    (OneShotsConsumed s.regs → t.regs = { s.regs with wcount := s.regs.wcount + 1 })

/-- What a write of a register of the SET bank leaves beside the common path (R217, R218): where no CLR bit of an Output pin is 1, the
derived levels of that register rise where the value has a 1 at an Output pin, and the other 1s stay. -/
def SetNetEffect (r : Fin 2) (value : Nat) (s t : State) : Prop :=
  (∀ p, bankReg p = r → isOutput s.regs.fsel p = true → Bank.bit s.regs.gpclr p = false) →
    Bank.get t.regs.outstate r = Bank.get s.regs.outstate r ||| (trunc32 value &&& outMask s.regs.fsel r) ∧
    Bank.get t.regs.gpset r = trunc32 value &&& ~~~outMask s.regs.fsel r ∧
    Bank.get t.regs.gpclr r = Bank.get s.regs.gpclr r

/-- What a write of a register of the CLR bank leaves beside the common path (R219, R220): where no SET bit of an Output pin is 1, the
derived levels of that register fall where the value has a 1 at an Output pin, and the other 1s stay. -/
def ClrNetEffect (r : Fin 2) (value : Nat) (s t : State) : Prop :=
  (∀ p, bankReg p = r → isOutput s.regs.fsel p = true → Bank.bit s.regs.gpset p = false) →
    Bank.get t.regs.outstate r = Bank.get s.regs.outstate r &&& ~~~(trunc32 value &&& outMask s.regs.fsel r) ∧
    Bank.get t.regs.gpclr r = trunc32 value &&& ~~~outMask s.regs.fsel r ∧
    Bank.get t.regs.gpset r = Bank.get s.regs.gpset r

end Sys2Proof.Machine
end

