-- ==== Sys2Proof/Certificates/Slice0/Obligations.lean ====
section
/-! DEFINITION. The statements for the provers. Each docstring names the rule of spec/ it formalises; where it rests on a choice of the model
or on an inference the spec marks as its own, the docstring says so. -/

open Sys2Proof Sys2Proof.Machine

/-! Encoding and decoding (30_encoding.md). -/

/-- Decode and encode agree for every operation that has a selector: no bit of an encoding is dropped (R112 to R117). The layout of the operand
words is the model's (notes/assumptions/9.md). -/
def Obligations.DecodeOfEncode : Prop :=
  ∀ i, WellFormed i = true → ∀ sel ops, encode i = some (sel, ops) → decodeWords sel ops = .ok i

/-- Every well-formed operation but the four internal ones is selected by an event (R110). -/
def Obligations.EveryOperationHasItsEvent : Prop :=
  ∀ i, WellFormed i = true → Selectable i = true → ∃ e, eventOf i = some e ∧ decode e = .ok i

/-- Whatever event is decoded, the operation is a well-formed one, and none of the four internal ones (R110, R117). -/
def Obligations.DecodedOperationsAreWellFormed : Prop :=
  ∀ e i, decode e = .ok i → WellFormed i = true ∧ Selectable i = true

/-- No two bus transactions decode to the same operation: no bit of the offset is ignored, no offset aliases another, and a read is never
taken for a write (R117). -/
def Obligations.BusDecodeIsByExactOffset : Prop :=
  (∀ offset width offset' width', decode (.busRead offset width) = decode (.busRead offset' width') →
    offset = offset' ∧ width = width') ∧
  (∀ offset width value offset' width' value',
    decode (.busWrite offset width value) = decode (.busWrite offset' width' value') →
    offset = offset' ∧ width = width' ∧ value = value') ∧
  ∀ offset width offset' width' value, decode (.busRead offset width) ≠ decode (.busWrite offset' width' value)

/-- A few selectors written out bit by bit from R113 to R116, one for each format and each kind of bus row, decode to the row at that offset
(R117 to R121). The operand words beside a selector are the model's (notes/assumptions/9.md), and so is that 0x35, an offset inside the
window that no list holds, is the row RD.BAD: R202 names it under RD.UNDEF, which has the same effect (notes/assumptions/8.md). -/
def Obligations.WrittenOutSelectorsDecode : Prop :=
  decodeWords 0b00000110100 [4] = .ok (.rdLevel0 4) ∧
  decodeWords 0b01000011100 [4, 0x20] = .ok (.wrSet0 4 0x20) ∧
  decodeWords 0b00000110101 [1] = .ok (.rdBad 0x35 1) ∧
  decodeWords 0b01000110000 [8, 7] = .ok (.wrRsvd30 8 7) ∧
  decodeWords 0b10001110101 [] = .ok (.line 53 true) ∧
  decodeWords 0b11000000000 [] = .ok .reset ∧
  decodeWords 0b11000000010 [] = .ok .snapsave

/-- A line event of a pin in range decodes with its level normalised; one of a pin of 54 or more is refused, by its own name, and nothing
happens (R129, R262; the spec's decisions D18, D26). -/
def Obligations.LineEventsAreNormalisedOrRefused : Prop :=
  (∀ (p : Pin) (level : Int), decode (.line p.val level) = .ok (.line p (decide (level ≠ 0)))) ∧
  ∀ s pin level rest, s.pending = .op (.line pin level) :: rest → 54 ≤ pin → step s = .refused (.pinOutOfRange pin)

/-- What a selector of none of the formats of R113 to R116 decodes to, all of it the model's reading of numbers that no port presents
(notes/assumptions/8.md): of the kinds line and control, and a number of more than 11 bits, to nothing; of the two bus kinds, that is with
`sel[8]` set, to the bad-offset access at the nine low bits, an offset at or above the window. -/
def Obligations.SelectorsOfNoFormatAreRefused : Prop :=
  (∀ sel ops, (sel / 512 = 2 ∧ 128 ≤ sel % 512) ∨ (sel / 512 = 3 ∧ 4 ≤ sel % 512) ∨ 2048 ≤ sel →
    decodeWords sel ops = .error (.noFormat sel)) ∧
  (∀ offset ops, 0x100 ≤ offset → offset < 0x200 →
    decodeWords offset ops = .ok (.rdUndef offset (operand ops 0))) ∧
  ∀ offset ops, 0x100 ≤ offset → offset < 0x200 →
    decodeWords (0x200 + offset) ops = .ok (.wrUndef offset (operand ops 0) (operand ops 1))

/-! The two common paths and the step. -/

/-- Every bus read, of every offset and width, is the common path over the register map: the pull, then the register or one record and 0
(R170, R118, R120). -/
def Obligations.BusReadsFollowTheCommonPath : Prop :=
  ∀ offset width s, ∃ i, decode (.busRead offset width) = .ok i ∧ exec i s = .next (busReadPath offset s)

/-- Every bus write, of every offset, width and value, is the common path over the register map: count, assign or record, derive, push
(R210, R119, R120). -/
def Obligations.BusWritesFollowTheCommonPath : Prop :=
  ∀ offset width value s, ∃ i, decode (.busWrite offset width value) = .ok i ∧ exec i s = .next (busWritePath offset value s)

/-- The width of a bus transaction changes nothing that the block does (R122). -/
def Obligations.WidthIsIgnored : Prop :=
  (∀ offset w w' (s : State), step { s with pending := .op (.busRead offset w) :: s.pending } =
    step { s with pending := .op (.busRead offset w') :: s.pending }) ∧
  ∀ offset w w' value (s : State), step { s with pending := .op (.busWrite offset w value) :: s.pending } =
    step { s with pending := .op (.busWrite offset w' value) :: s.pending }

/-- When the next input is an event that decodes to an operation, the step is that operation on the state without this input; and presenting an
event as bits puts it next (R13; notes/assumptions/7.md). -/
def Obligations.StepRunsTheDecodedOperation : Prop :=
  (∀ s e rest i, s.pending = .op e :: rest → decode e = .ok i → step s = exec i { s with pending := rest }) ∧
  ∀ (s : State) nbits w i, decodeTableWord nbits w = some i →
    step (s.withFetchWord nbits w) = exec i (s.before (eventOfBits w))

/-- With nothing pending nothing changes (R22); an access of the external agent changes the one word it stores, or is remembered as a load,
and touches nothing of the device (R92). -/
def Obligations.IdleAndExternalSteps : Prop :=
  (∀ s, s.pending = [] → step s = .next s) ∧
  (∀ s f v rest, s.pending = .ext (.store f v) :: rest → ∃ t, step s = .next t ∧
    (∀ g, t.shmRead g = if g = f then v else s.shmRead g) ∧
    (∀ a, a < f.addr ∨ f.addr + 4 ≤ a → Memory.get t.shm a = Memory.get s.shm a) ∧
    t = { s with pending := rest, shm := t.shm }) ∧
  ∀ s f rest, s.pending = .ext (.load f) :: rest →
    step s = .next { s with pending := rest, extSeen := s.extSeen ++ [(f, s.shmRead f)] }

/-- A stored field occupies four bytes from `4 * k` in the byte order of the host, and no other byte changes (R76, R77; the spec's
decision D14). -/
def Obligations.SharedFieldsAreFourBytesInHostOrder : Prop :=
  ∀ (s : State) (f : ShmField) (v : Word),
    (∀ g, (s.shmWrite f v).shmRead g = if g = f then v else s.shmRead g) ∧
    (∀ k, k < 4 → Memory.get (s.shmWrite f v).shm (4 * f.index + k) =
      match s.params.shmEndian with
      | .little => v.extractLsb' (8 * k) 8
      | .big => v.extractLsb' (8 * (3 - k)) 8) ∧
    ∀ a, a < 4 * f.index ∨ 4 * f.index + 4 ≤ a → Memory.get (s.shmWrite f v).shm a = Memory.get s.shm a

/-! The pin-function decoder (40_pin_function_decoder.md). -/

/-- `fn(p)` delivers `(FSEL[p div 10] >> (3 * (p mod 10))) & 7` and changes nothing else (R140). -/
def Obligations.FunctionDecodeDeliversTheField : Prop :=
  ∀ (p : Pin) s, ∃ c : BitVec 3, exec (.fn p) s = .next { s with result := .code c } ∧
    c.toNat = (FselRegs.get s.regs.fsel ⟨p.val / 10, by omega⟩).toNat / 2 ^ (3 * (p.val % 10)) % 8

/-- `fn(p)` depends on the three bits of its field and on nothing else of the state (R142). -/
def Obligations.FunctionDecodeReadsThreeBits : Prop :=
  ∀ (p : Pin) s t,
    (∀ j, j < 3 → (FselRegs.get s.regs.fsel (fselReg p)).getLsbD (fselShift p + j) =
      (FselRegs.get t.regs.fsel (fselReg p)).getLsbD (fselShift p + j)) →
    ∃ c, exec (.fn p) s = .next { s with result := .code c } ∧ exec (.fn p) t = .next { t with result := .code c }

/-- Each of the eight codes may be put in each field, is what the decoder then returns, and leaves every other pin's code alone (R24, R123,
R127): the 54 fields do not overlap. -/
def Obligations.FunctionFieldsAreIndependent : Prop :=
  ∀ (f : FselRegs) (p : Pin) (c : BitVec 3) (q : Pin),
    let w := FselRegs.get f (fselReg p)
    let f' := FselRegs.put f (fselReg p) ((w &&& ~~~(7#32 <<< fselShift p)) ||| (c.setWidth 32 <<< fselShift p))
    fnCode f' q = if q = p then c else fnCode f q

/-- The masks have a pin's bit exactly where its code is 0 or 1, no bit where no pin is, and no bit in common (R141, which the spec derives
from R140 and R124). -/
def Obligations.MasksCollectThePins : Prop :=
  ∀ f,
    (∀ p, (inMask f (bankReg p)).getLsbD (bankBit p) = decide (fnCode f p = 0) ∧
      (outMask f (bankReg p)).getLsbD (bankBit p) = decide (fnCode f p = 1)) ∧
    (∀ j, 22 ≤ j → (inMask f 1).getLsbD j = false ∧ (outMask f 1).getLsbD j = false) ∧
    ∀ r, inMask f r &&& outMask f r = 0

/-! The output-state deriver (41_output_state_deriver.md). -/

/-- The derive pass, pin by pin: an Output pin's set request wins and is consumed, else its clear request is applied and consumed, else nothing
changes; a pin that is not Output, a bit of no pin and everything outside the three banks are left alone (R150, R151, R153, R155). -/
def Obligations.DerivePassPinByPin : Prop :=
  ∀ s, ∃ t, exec .derive s = .next t ∧
    t = { s with regs := { s.regs with outstate := t.regs.outstate, gpset := t.regs.gpset, gpclr := t.regs.gpclr } } ∧
    (∀ p, fnCode s.regs.fsel p = 1 → Bank.bit s.regs.gpset p = true →
      Bank.bit t.regs.outstate p = true ∧ Bank.bit t.regs.gpset p = false ∧
      Bank.bit t.regs.gpclr p = (!s.params.tieClearsClr && Bank.bit s.regs.gpclr p)) ∧
    (∀ p, fnCode s.regs.fsel p = 1 → Bank.bit s.regs.gpset p = false → Bank.bit s.regs.gpclr p = true →
      Bank.bit t.regs.outstate p = false ∧ Bank.bit t.regs.gpset p = false ∧ Bank.bit t.regs.gpclr p = false) ∧
    (∀ p, fnCode s.regs.fsel p ≠ 1 ∨ (Bank.bit s.regs.gpset p = false ∧ Bank.bit s.regs.gpclr p = false) →
      Bank.bit t.regs.outstate p = Bank.bit s.regs.outstate p ∧ Bank.bit t.regs.gpset p = Bank.bit s.regs.gpset p ∧
      Bank.bit t.regs.gpclr p = Bank.bit s.regs.gpclr p) ∧
    ∀ r j, noPinAt r j →
      (Bank.get t.regs.outstate r).getLsbD j = (Bank.get s.regs.outstate r).getLsbD j ∧
      (Bank.get t.regs.gpset r).getLsbD j = (Bank.get s.regs.gpset r).getLsbD j ∧
      (Bank.get t.regs.gpclr r).getLsbD j = (Bank.get s.regs.gpclr r).getLsbD j

/-- The derive pass equals its mask form, register by register (R152, which the spec derives from R150 and R141). -/
def Obligations.DerivePassInMaskForm : Prop :=
  ∀ s, ∃ f, exec .derive s = .next { s with regs := f } ∧ DeriveEffect s.params.tieClearsClr s.regs f

/-- A second derive pass right after a first changes nothing where `P_TIE_CLEARS_CLR` is 1. Where it is 0, the first pass leaves the derived level
and the clear request of an Output pin that was at a tie 1, the second drops both, and it changes nothing else: no bit of another pin, no
bit of no pin, and nothing outside the two banks. A pass on a state whose one-shot bits are consumed changes nothing (R156). -/
def Obligations.DerivePassIsIdempotent : Prop :=
  ∀ s, ∃ t u, exec .derive s = .next t ∧ exec .derive t = .next u ∧
    (s.params.tieClearsClr = true → u = t) ∧
    (s.params.tieClearsClr = false →
      (∀ p, atTie s.regs p →
        Bank.bit t.regs.outstate p = true ∧ Bank.bit t.regs.gpset p = false ∧ Bank.bit t.regs.gpclr p = true ∧
        Bank.bit u.regs.outstate p = false ∧ Bank.bit u.regs.gpclr p = false) ∧
      (∀ p, ¬ atTie s.regs p →
        Bank.bit u.regs.outstate p = Bank.bit t.regs.outstate p ∧ Bank.bit u.regs.gpclr p = Bank.bit t.regs.gpclr p) ∧
      (∀ r j, noPinAt r j →
        (Bank.get u.regs.outstate r).getLsbD j = (Bank.get t.regs.outstate r).getLsbD j ∧
        (Bank.get u.regs.gpclr r).getLsbD j = (Bank.get t.regs.gpclr r).getLsbD j) ∧
      u = { t with regs := { t.regs with outstate := u.regs.outstate, gpclr := u.regs.gpclr } }) ∧
    (OneShotsConsumed s.regs → t = s)

/-- The order in which the derive pass takes the pins cannot be observed (R157). -/
def Obligations.DeriveOrderCannotBeObserved : Prop :=
  ∀ (order : List Pin), order.Perm pins → ∀ s,
    exec .derive s = .next { s with regs := order.foldl (derivePin s.params.tieClearsClr) s.regs }

/-- After a bus write whose derive pass ran, an Output pin's set request is 0, and its clear request is 0 unless `P_TIE_CLEARS_CLR` is 0 and
there was a tie when the pass began (R51, which the spec derives from R150). -/
def Obligations.OneShotBitsAfterAWrite : Prop :=
  ∀ offset width value s, runsPasses offset s = true → ∃ i t, decode (.busWrite offset width value) = .ok i ∧
    exec i s = .next t ∧ ∀ p, isOutput t.regs.fsel p = true →
      Bank.bit t.regs.gpset p = false ∧
      (s.params.tieClearsClr = true → Bank.bit t.regs.gpclr p = false) ∧
      (s.params.tieClearsClr = false → Bank.bit t.regs.gpclr p = true →
        Bank.bit (beforeDerive offset value s).regs.gpset p = true)

/-- A function-select write that makes a pin Output applies the pin's stuck request in the same write (R158, which the spec derives from R150
and R154). -/
def Obligations.StuckBitsAreReleased : Prop :=
  ∀ (n : Fin 6) width value s, ∃ i t, decode (.busWrite (4 * n.val) width value) = .ok i ∧ exec i s = .next t ∧
    FselRegs.get t.regs.fsel n = trunc32 value ∧
    ∀ p, fselReg p = n → isOutput t.regs.fsel p = true →
      (Bank.bit s.regs.gpset p = true → Bank.bit t.regs.outstate p = true ∧ Bank.bit t.regs.gpset p = false) ∧
      (Bank.bit s.regs.gpset p = false → Bank.bit s.regs.gpclr p = true →
        Bank.bit t.regs.outstate p = false ∧ Bank.bit t.regs.gpclr p = false)

/-! The shared bridge (42_shared_bridge.md, 20_memory.md). -/

/-- A push completes, stores each of the eight fields at its register's value whatever the record held, and changes no register and no other
byte of its own; with an invalid bridge it appends one record and does nothing else (R160, R161). The order of the stores and what the
external agent does between them are the state's (notes/assumptions/6.md). -/
def Obligations.PushStoresTheEightFields : Prop :=
  ∀ s, ∃ t, exec .push s = .next t ∧ PushEffect s t

/-- With the external agent quiet, the record a push leaves does not depend on the order of its eight stores (R90; the order is open, the
spec's decision D15). -/
def Obligations.PushOrderDoesNotShowAfterwards : Prop :=
  ∀ (s : State) order order', s.bursts = [] → ∃ t t',
    exec .push { s with orders := order :: s.orders } = .next t ∧
    exec .push { s with orders := order' :: s.orders } = .next t' ∧
    ∀ a, Memory.get t.shm a = Memory.get t'.shm a

/-- After a bus write whose push ran, the stored fields of the record equal the registers, provided the external agent stored to none of them
during the push; a reset may break the equality (R56, which the spec derives from R160 and R210; R321). -/
def Obligations.RecordMatchesAfterAWrite : Prop :=
  (∀ offset width value s, runsPasses offset s = true → s.bridgeValid = true → (∀ f ∈ pushedFields, noStoreTo f 8 s) →
    ∃ i t, decode (.busWrite offset width value) = .ok i ∧ exec i s = .next t ∧
      (∀ n, t.shmRead (.fsel n) = FselRegs.get t.regs.fsel n) ∧
      ∀ r, t.shmRead (.outstate r) = Bank.get t.regs.outstate r) ∧
  ∃ (s t : State), (∀ n, s.shmRead (.fsel n) = FselRegs.get s.regs.fsel n) ∧ exec .reset s = .next t ∧
    t.shmRead (.fsel 0) ≠ FselRegs.get t.regs.fsel 0

/-- A pull completes and copies to each Input pin's level bit the bit of the shared level field at the moment it is loaded for that pin; no other
bit of LEVEL, no other register and no byte of the record changes; with an invalid bridge it appends one record and does nothing else
(R163). One load per Input pin is the wider behaviour that R91 admits; the order of the loads is the state's (notes/assumptions/15.md). -/
def Obligations.PullCopiesTheInputLevels : Prop :=
  ∀ s, ∃ t, exec .pull s = .next t ∧ PullEffect s t

/-- With the external agent quiet a pull equals its mask form (R164, which the spec derives from R163 and R141). -/
def Obligations.QuietPullInMaskForm : Prop :=
  ∀ s : State, s.bridgeValid = true → s.bursts = [] → ∃ t, exec .pull s = .next t ∧
    (∀ r, Bank.get t.regs.level r =
      pullMasked (inMask s.regs.fsel r) (Bank.get s.regs.level r) (s.shmRead (.level r))) ∧
    t = { s with regs := { s.regs with level := t.regs.level }, pullOrders := s.pullOrders.tail }

/-- With an invalid bridge the rest of a bus operation goes on unchanged: a read returns the register as it stands, a write changes its target
and runs the derive pass; each leaves one record and does not touch the shared record (R166, the spec's decision D12). -/
def Obligations.InvalidBridgeSkipsTheTransfers : Prop :=
  ∀ s : State, s.bridgeValid = false →
    (∀ offset reg width, readable offset = some reg → ∃ i, decode (.busRead offset width) = .ok i ∧
      exec i s = .next { s with diag := s.diag ++ [.bridgeSkipped .pull]
                                result := .busData (zext (RegFile.read s.regs reg)) }) ∧
    ∀ offset reg width value, writable offset = some reg → ∃ i h, decode (.busWrite offset width value) = .ok i ∧
      DeriveEffect s.params.tieClearsClr
        (RegFile.write { s.regs with wcount := s.regs.wcount + 1 } reg (trunc32 value)) h ∧
      exec i s = .next { s with regs := h, diag := s.diag ++ [.bridgeSkipped .push], result := .nothing }

/-- When one operation leaves two records their order is fixed: the skipped pull before the bad offset of a read, the bad offset of a write
before the skipped push (R277, which the spec derives from R170 and R210). -/
def Obligations.TwoRecordsComeInTheWrittenOrder : Prop :=
  ∀ s : State, s.bridgeValid = false →
    (∀ offset width, readable offset = none → ∃ i t, decode (.busRead offset width) = .ok i ∧ exec i s = .next t ∧
      t.diag = s.diag ++ [.bridgeSkipped .pull, .badOffsetRead offset] ∧ t.result = .busData 0) ∧
    ∀ offset width value, writable offset = none → ∃ i t, decode (.busWrite offset width value) = .ok i ∧
      exec i s = .next t ∧
      t.diag = s.diag ++ .badOffsetWrite offset (trunc32 value) ::
        (if s.params.postOnBadWrite then [.bridgeSkipped .push] else [])

/-! Bus reads (43_mmio_read.md). -/

/-- The six function-select reads (R171 to R176). -/
def Obligations.FunctionSelectReads : Prop :=
  StoredReadRow 0x000 .rdFsel0 (fun f => f.fsel.f0) ∧ StoredReadRow 0x004 .rdFsel1 (fun f => f.fsel.f1) ∧
  StoredReadRow 0x008 .rdFsel2 (fun f => f.fsel.f2) ∧ StoredReadRow 0x00c .rdFsel3 (fun f => f.fsel.f3) ∧
  StoredReadRow 0x010 .rdFsel4 (fun f => f.fsel.f4) ∧ StoredReadRow 0x014 .rdFsel5 (fun f => f.fsel.f5)

/-- The two level reads: the value returned is the one the pull leaves (R177, R178). -/
def Obligations.LevelReads : Prop :=
  ReadRow 0x034 .rdLevel0 (fun f => f.level.r0) ∧ ReadRow 0x038 .rdLevel1 (fun f => f.level.r1)

/-- The reads of the event-detect status and of the rising, falling, high, low and asynchronous rising enables (R179 to R190). -/
def Obligations.DetectRegisterReads : Prop :=
  StoredReadRow 0x040 .rdEds0 (fun f => f.eds.r0) ∧ StoredReadRow 0x044 .rdEds1 (fun f => f.eds.r1) ∧
  StoredReadRow 0x04c .rdRen0 (fun f => f.ren.r0) ∧ StoredReadRow 0x050 .rdRen1 (fun f => f.ren.r1) ∧
  StoredReadRow 0x058 .rdFen0 (fun f => f.fen.r0) ∧ StoredReadRow 0x05c .rdFen1 (fun f => f.fen.r1) ∧
  StoredReadRow 0x064 .rdHen0 (fun f => f.hen.r0) ∧ StoredReadRow 0x068 .rdHen1 (fun f => f.hen.r1) ∧
  StoredReadRow 0x070 .rdLen0 (fun f => f.len.r0) ∧ StoredReadRow 0x074 .rdLen1 (fun f => f.len.r1) ∧
  StoredReadRow 0x07c .rdAren0 (fun f => f.aren.r0) ∧ StoredReadRow 0x080 .rdAren1 (fun f => f.aren.r1)

/-- The reads of the asynchronous falling enables, of the pull control and of the pull clocks (R191 to R195). -/
def Obligations.PullControlReads : Prop :=
  StoredReadRow 0x088 .rdAfen0 (fun f => f.afen.r0) ∧ StoredReadRow 0x08c .rdAfen1 (fun f => f.afen.r1) ∧
  StoredReadRow 0x094 .rdPud (fun f => f.pud) ∧ StoredReadRow 0x098 .rdPudclk0 (fun f => f.pudclk.r0) ∧
  StoredReadRow 0x09c .rdPudclk1 (fun f => f.pudclk.r1)

/-- The bad-offset reads: of the write-only registers, of the thirteen reserved offsets, of every other offset inside the window and of every
offset at or above it (R196 to R202, R271). That the last two are the rows RD.BAD and RD.UNDEF is the model's choice: R202 names unlisted
offsets inside the window under RD.UNDEF too, with the same effect (notes/assumptions/8.md). -/
def Obligations.BadOffsetReads : Prop :=
  (BadReadRow 0x1c .rdSet0 ∧ BadReadRow 0x20 .rdSet1 ∧ BadReadRow 0x28 .rdClr0 ∧ BadReadRow 0x2c .rdClr1) ∧
  (BadReadRow 0x18 .rdRsvd18 ∧ BadReadRow 0x24 .rdRsvd24 ∧ BadReadRow 0x30 .rdRsvd30 ∧ BadReadRow 0x3c .rdRsvd3c ∧
    BadReadRow 0x48 .rdRsvd48 ∧ BadReadRow 0x54 .rdRsvd54 ∧ BadReadRow 0x60 .rdRsvd60 ∧ BadReadRow 0x6c .rdRsvd6c ∧
    BadReadRow 0x78 .rdRsvd78 ∧ BadReadRow 0x84 .rdRsvd84 ∧ BadReadRow 0x90 .rdRsvd90 ∧ BadReadRow 0xa0 .rdRsvda0 ∧
    BadReadRow 0xb0 .rdRsvdb0) ∧
  (∀ offset, offset < 0x100 → offset ∉ listedOffsets → BadReadRow offset (.rdBad offset)) ∧
  ∀ offset, 0x100 ≤ offset → (∀ width, decode (.busRead offset width) = .ok (.rdUndef offset width)) ∧
    ∀ width s, ∃ t, exec (.rdUndef offset width) s = .next t ∧ ReadEffect s t 0 [.badOffsetRead offset]

/-! Bus writes (44_mmio_write.md). -/

/-- The six function-select writes (R211 to R216). -/
def Obligations.FunctionSelectWrites : Prop :=
  WriteRow 0x200 .wrFsel0 (.fsel 0) ∧ WriteRow 0x204 .wrFsel1 (.fsel 1) ∧ WriteRow 0x208 .wrFsel2 (.fsel 2) ∧
  WriteRow 0x20c .wrFsel3 (.fsel 3) ∧ WriteRow 0x210 .wrFsel4 (.fsel 4) ∧ WriteRow 0x214 .wrFsel5 (.fsel 5)

/-- The set and clear writes, with the net effect that the spec derives for each from R210 and R152 (R217 to R220). -/
def Obligations.SetAndClearWrites : Prop :=
  (WriteRow 0x21c .wrSet0 (.gpset 0) ∧
    ∀ width value s, ∃ t, exec (.wrSet0 width value) s = .next t ∧ SetNetEffect 0 value s t) ∧
  (WriteRow 0x220 .wrSet1 (.gpset 1) ∧
    ∀ width value s, ∃ t, exec (.wrSet1 width value) s = .next t ∧ SetNetEffect 1 value s t) ∧
  (WriteRow 0x228 .wrClr0 (.gpclr 0) ∧
    ∀ width value s, ∃ t, exec (.wrClr0 width value) s = .next t ∧ ClrNetEffect 0 value s t) ∧
  (WriteRow 0x22c .wrClr1 (.gpclr 1) ∧
    ∀ width value s, ∃ t, exec (.wrClr1 width value) s = .next t ∧ ClrNetEffect 1 value s t)

/-- The writes of the event-detect status and of the rising, falling, high, low and asynchronous rising enables (R221 to R232). -/
def Obligations.DetectRegisterWrites : Prop :=
  StorageWriteRow 0x240 .wrEds0 (.eds 0) ∧ StorageWriteRow 0x244 .wrEds1 (.eds 1) ∧
  StorageWriteRow 0x24c .wrRen0 (.ren 0) ∧ StorageWriteRow 0x250 .wrRen1 (.ren 1) ∧
  StorageWriteRow 0x258 .wrFen0 (.fen 0) ∧ StorageWriteRow 0x25c .wrFen1 (.fen 1) ∧
  StorageWriteRow 0x264 .wrHen0 (.hen 0) ∧ StorageWriteRow 0x268 .wrHen1 (.hen 1) ∧
  StorageWriteRow 0x270 .wrLen0 (.len 0) ∧ StorageWriteRow 0x274 .wrLen1 (.len 1) ∧
  StorageWriteRow 0x27c .wrAren0 (.aren 0) ∧ StorageWriteRow 0x280 .wrAren1 (.aren 1)

/-- The writes of the asynchronous falling enables, of the pull control and of the pull clocks (R233 to R237). -/
def Obligations.PullControlWrites : Prop :=
  StorageWriteRow 0x288 .wrAfen0 (.afen 0) ∧ StorageWriteRow 0x28c .wrAfen1 (.afen 1) ∧
  StorageWriteRow 0x294 .wrPud .pud ∧ StorageWriteRow 0x298 .wrPudclk0 (.pudclk 0) ∧
  StorageWriteRow 0x29c .wrPudclk1 (.pudclk 1)

/-- The bad-offset writes: of the level registers, of the thirteen reserved offsets, of every other offset inside the window and of every
offset at or above it (R247 to R251, R272). That no register but the write counter changes where no one-shot bit of an Output pin is 1 is
what the spec derives in R247 from R156. That the last two are the rows WR.BAD and WR.UNDEF is the model's choice: R251 names unlisted
offsets inside the window under WR.UNDEF too, with the same effect (notes/assumptions/8.md). -/
def Obligations.BadOffsetWrites : Prop :=
  (BadWriteRow 0x34 .wrLevel0 ∧ BadWriteRow 0x38 .wrLevel1) ∧
  (BadWriteRow 0x18 .wrRsvd18 ∧ BadWriteRow 0x24 .wrRsvd24 ∧ BadWriteRow 0x30 .wrRsvd30 ∧ BadWriteRow 0x3c .wrRsvd3c ∧
    BadWriteRow 0x48 .wrRsvd48 ∧ BadWriteRow 0x54 .wrRsvd54 ∧ BadWriteRow 0x60 .wrRsvd60 ∧ BadWriteRow 0x6c .wrRsvd6c ∧
    BadWriteRow 0x78 .wrRsvd78 ∧ BadWriteRow 0x84 .wrRsvd84 ∧ BadWriteRow 0x90 .wrRsvd90 ∧ BadWriteRow 0xa0 .wrRsvda0 ∧
    BadWriteRow 0xb0 .wrRsvdb0) ∧
  (∀ offset, offset < 0x100 → offset ∉ listedOffsets → BadWriteRow offset (.wrBad offset)) ∧
  ∀ offset, 0x100 ≤ offset → (∀ width value, decode (.busWrite offset width value) = .ok (.wrUndef offset width value)) ∧
    ∀ width value s, ∃ t, exec (.wrUndef offset width value) s = .next t ∧ BadWriteEffect offset value s t

/-- Where `P_TIE_CLEARS_CLR` is 1 and no one-shot bit of an Output pin is 1, writing the same value to the same offset twice leaves the register
file, but for the write counter, as once did (from R81, an inference of the spec; the second premise is the model's addition: in a
state that SNAPLOAD made the conclusion is false). -/
def Obligations.SecondIdenticalWriteChangesNoRegister : Prop :=
  ∀ offset width value s, s.params.tieClearsClr = true → OneShotsConsumed s.regs →
    ∃ i t u, decode (.busWrite offset width value) = .ok i ∧ exec i s = .next t ∧ exec i t = .next u ∧
      u.regs = { t.regs with wcount := t.regs.wcount + 1 }

/-! Line events (45_external_lines_and_control.md). -/

/-- A line event completes; an Input pin's level bit takes the level and no other bit of LEVEL changes, any other pin's event leaves nothing
behind; nothing else changes (R261, R263). The selector is that of R261. -/
def Obligations.LineSetsAnInputLevel : Prop :=
  ∀ (p : Pin) (level : Bool) s,
    decodeWords (0x400 ||| (level.toNat <<< 6) ||| p.val) [] = .ok (.line p level) ∧
    ∃ t, exec (.line p level) s = .next t ∧
      t = { s with regs := { s.regs with level := t.regs.level }, result := .nothing } ∧
      (fnCode s.regs.fsel p ≠ 0 → t.regs.level = s.regs.level) ∧
      (fnCode s.regs.fsel p = 0 → ∀ r j, (Bank.get t.regs.level r).getLsbD j =
        if r = bankReg p ∧ j = bankBit p then level else (Bank.get s.regs.level r).getLsbD j)

/-- The level a line event leaves on an Input pin does not survive the next bus read, which takes the shared field's bit instead; with an
invalid bridge it does (R322, which the spec derives from R261, R163 and R165). -/
def Obligations.LineLevelDoesNotSurviveARead : Prop :=
  ∀ (p : Pin) level offset width s, fnCode s.regs.fsel p = 0 → s.bursts = [] →
    ∃ i t u, exec (.line p level) s = .next t ∧ decode (.busRead offset width) = .ok i ∧ exec i t = .next u ∧
      Bank.bit u.regs.level p =
        if s.bridgeValid then (s.shmRead (.level (bankReg p))).getLsbD (bankBit p) else level

/-! Control events (70_reset_and_hazards.md). -/

/-- A reset completes, leaves every register and the write counter 0 and every pin Input, and keeps the shared record, BRIDGE_VALID and the trace;
the state after reset has the same registers (R300, R48). -/
def Obligations.ResetZeroesTheRegisterFile : Prop :=
  (∀ s, ∃ t, exec .reset s = .next t ∧ (∀ reg, RegFile.read t.regs reg = 0) ∧
    (∀ r, Bank.get t.regs.outstate r = 0) ∧ t.regs.wcount = 0 ∧ (∀ p, fnCode t.regs.fsel p = 0) ∧
    t = { s with regs := t.regs, result := .nothing }) ∧
  (∀ reg, RegFile.read State.reset.regs reg = 0) ∧ State.reset.regs.outstate = Bank.zero ∧ State.reset.regs.wcount = 0

/-- The first INIT completes: a successful attach makes the bridge valid and keeps a found record or leaves a created one holding the given words, a
failed one makes it invalid and appends one record; a second INIT is refused (R301; the refusal is the spec's decision D30). What the
register file holds afterwards is left open (notes/assumptions/3.md). -/
def Obligations.InitAttachesTheRecord : Prop :=
  (∀ s, s.inited = false →
    (∃ t, exec (.init .found) s = .next t ∧
      t = { s with inited := true, regs := t.regs, draws := t.draws, bridgeValid := true, result := .nothing }) ∧
    (∀ words, ∃ t, exec (.init (.created words)) s = .next t ∧
      t = { s with inited := true, regs := t.regs, draws := t.draws, bridgeValid := true, result := .nothing
                   shm := t.shm } ∧
      (∀ n, t.shmRead (.fsel n) = FselRegs.get words.fsel n) ∧ (∀ r, t.shmRead (.level r) = Bank.get words.level r) ∧
      (∀ r, t.shmRead (.outstate r) = Bank.get words.outstate r)) ∧
    ∃ t, exec (.init .failed) s = .next t ∧
      t = { s with inited := true, regs := t.regs, draws := t.draws, bridgeValid := false, result := .nothing
                   diag := s.diag ++ [.attachFailed] }) ∧
  ∀ s attach, s.inited = true → exec (.init attach) s = .refused .secondInit

/-- SNAPSAVE is decoded from its selector, delivers the 29 registers as they stand and changes nothing else (R310). -/
def Obligations.SnapSaveDeliversTheRegisters : Prop :=
  (∀ ops, decodeWords 0x602 ops = .ok .snapsave) ∧
  ∀ s, ∃ x, exec .snapsave s = .next { s with result := .snapshot x } ∧
    wordsOfSnap x =
      [.fsel 0, .fsel 1, .fsel 2, .fsel 3, .fsel 4, .fsel 5, .gpset 0, .gpset 1, .gpclr 0, .gpclr 1, .level 0, .level 1,
       .eds 0, .eds 1, .ren 0, .ren 1, .fen 0, .fen 1, .hen 0, .hen 1, .len 0, .len 1, .aren 0, .aren 1, .afen 0, .afen 1,
       .pud, .pudclk 0, .pudclk 1].map (RegFile.read s.regs)

/-- SNAPLOAD is decoded from its 29 words, overwrites the 29 registers with them, and keeps OUTSTATE, WCOUNT and everything else (R311, the spec's
decision D17). The model's choices: the words stand in the order in which R50 lists the registers, R310 leaving the order of the
stream open (notes/assumptions/9.md), and with any other number of words it is no event (notes/assumptions/20.md). -/
def Obligations.SnapLoadOverwritesTheRegisters : Prop :=
  (∀ words s, words.length = 29 → ∃ x t, decode (.snapLoad words) = .ok (.snapload x) ∧
    exec (.snapload x) s = .next t ∧
    [.fsel 0, .fsel 1, .fsel 2, .fsel 3, .fsel 4, .fsel 5, .gpset 0, .gpset 1, .gpclr 0, .gpclr 1, .level 0, .level 1,
     .eds 0, .eds 1, .ren 0, .ren 1, .fen 0, .fen 1, .hen 0, .hen 1, .len 0, .len 1, .aren 0, .aren 1, .afen 0, .afen 1,
     .pud, .pudclk 0, .pudclk 1].map (RegFile.read t.regs) = words ∧
    t.regs.outstate = s.regs.outstate ∧ t.regs.wcount = s.regs.wcount ∧ t = { s with regs := t.regs, result := .nothing }) ∧
  ∀ words, words.length ≠ 29 → decode (.snapLoad words) = .error (.snapshotLength words.length)

/-- Loading a saved snapshot restores the 29 registers of the state it was taken in and nothing of OUTSTATE or WCOUNT (R326, which the spec
derives from R310 and R311). -/
def Obligations.SnapshotRoundTripLosesTheOutputs : Prop :=
  ∀ s s' : State, ∃ x t t', exec .snapsave s = .next t ∧ t.result = .snapshot x ∧ exec (.snapload x) s' = .next t' ∧
    t'.regs = { s.regs with outstate := s'.regs.outstate, wcount := s'.regs.wcount }

/-! Invariants that every step keeps. -/

/-- Every step keeps the canonical form of the shared record. -/
def Obligations.StepsKeepTheRecordCanonical : Prop :=
  ∀ s t, Canonical s → step s = .next t → Canonical t

/-- Every step but a SNAPLOAD keeps the one-shot bits of Output pins consumed, where P_TIE_CLEARS_CLR is 1 (from R51, R53 and R156, inferences of
the spec). -/
def Obligations.StepsKeepOneShotsConsumed : Prop :=
  ∀ s t, Settled s → nextIsSnapLoad s = false → step s = .next t → Settled t

/-- Every step but a SNAPLOAD keeps the no-pin bits of OUTSTATE and LEVEL at 0 (from R55, an inference of the spec). -/
def Obligations.StepsKeepNoPinBitsClear : Prop :=
  ∀ s t, NoPinClear s → nextIsSnapLoad s = false → step s = .next t → NoPinClear t

/-- The state after reset meets the three invariants. -/
def Obligations.ResetMeetsTheInvariants : Prop :=
  Canonical State.reset ∧ Settled State.reset ∧ NoPinClear State.reset

/-- A derived level changes in a step only if the step is a reset, to 0; an INIT; or a bus write whose derive pass ran, found the pin Output, and
rose it for a set request or dropped it for a clear request alone (R52, which the spec derives from R40 and R150). -/
def Obligations.OutputLevelsChangeOnlyInDerive : Prop :=
  ∀ s t p, step s = .next t → Bank.bit t.regs.outstate p ≠ Bank.bit s.regs.outstate p → ∃ e rest, s.pending = .op e :: rest ∧
    (e = .reset ∧ Bank.bit t.regs.outstate p = false ∨ (∃ attach, e = .init attach) ∨
      ∃ offset width value, e = .busWrite offset width value ∧ runsPasses offset s = true ∧
        let u := (beforeDerive offset value s).regs
        isOutput u.fsel p = true ∧
        (Bank.bit u.gpset p = true ∧ Bank.bit t.regs.outstate p = true ∨
          Bank.bit u.gpset p = false ∧ Bank.bit u.gpclr p = true ∧ Bank.bit t.regs.outstate p = false))

/-- The level bit of a pin that is not Input changes in a step only if the step is a RESET, a SNAPLOAD or an INIT (from R54, an inference of the
spec). -/
def Obligations.LevelOfANonInputPinIsFrozen : Prop :=
  ∀ s t p, step s = .next t → isInput s.regs.fsel p = false → Bank.bit t.regs.level p ≠ Bank.bit s.regs.level p →
    ∃ e rest, s.pending = .op e :: rest ∧ (e = .reset ∨ (∃ words, e = .snapLoad words) ∨ ∃ attach, e = .init attach)

/-- A function-select or storage-only register changes in a step only if the step is a bus write of its own offset, which leaves it at the value
written, a RESET, a SNAPLOAD or an INIT (from R23 and R39). -/
def Obligations.RegistersChangeOnlyByTheirOwnWrite : Prop :=
  ∀ s t reg, step s = .next t → (∀ r, reg ≠ .gpset r ∧ reg ≠ .gpclr r ∧ reg ≠ .level r) →
    RegFile.read t.regs reg ≠ RegFile.read s.regs reg → ∃ e rest, s.pending = .op e :: rest ∧
      (e = .reset ∨ (∃ words, e = .snapLoad words) ∨ (∃ attach, e = .init attach) ∨
        ∃ offset width value, e = .busWrite offset width value ∧ writable offset = some reg ∧
          RegFile.read t.regs reg = trunc32 value)

/-- Once INIT has been performed BRIDGE_VALID never changes, the trace only grows at its end, and the write counter never falls but in a RESET
(R43, R45, R41). -/
def Obligations.BridgeFixedAndTraceOnlyGrows : Prop :=
  ∀ s t, s.inited = true → step s = .next t →
    t.inited = true ∧ t.params = s.params ∧ t.bridgeValid = s.bridgeValid ∧ (∃ records, t.diag = s.diag ++ records) ∧
    (s.regs.wcount ≤ t.regs.wcount ∨ ∃ rest, s.pending = .op .reset :: rest)

/-- Every admitted event has a next state: an operation is refused only if it is a second INIT, an event only if its pin is out of range or it
is none that a port presents, and nothing faults (R278). The pin is R278's own exception; that the others are not admitted is the model's
reading: a second INIT (R301, D30; notes/assumptions/11.md), a snapshot that has not 29 words (notes/assumptions/20.md), and a selector of
no format or an INIT whose operand names no answer (notes/assumptions/8.md, 9.md). -/
def Obligations.EveryAdmittedEventHasANextState : Prop :=
  (∀ e i s, decode e = .ok i → (s.inited = false ∨ ∀ attach, i ≠ .init attach) → ∃ t, exec i s = .next t) ∧
  (∀ e err, decode e = .error err → (∃ pin level, e = .line pin level ∧ 54 ≤ pin) ∨
    (∃ words, e = .snapLoad words ∧ words.length ≠ 29) ∨ ∃ sel, e = .unlisted sel) ∧
  ∀ s r, step s ≠ .fault r

/-- The device sees nothing of the record but the two level fields: two states that differ only in the other bytes give, for every operation,
the same registers, the same result and the same records, and still agree on the level fields (R92). -/
def Obligations.DeviceSeesOnlyTheLevelFields : Prop :=
  ∀ i s m, (∀ a, 24 ≤ a → a < 32 → Memory.get m a = Memory.get s.shm a) → ∀ t, exec i s = .next t →
    ∃ t', exec i { s with shm := m } = .next t' ∧ t'.regs = t.regs ∧ t'.result = t.result ∧ t'.diag = t.diag ∧
      ∀ a, 24 ≤ a → a < 32 → Memory.get t'.shm a = Memory.get t.shm a

/-- An external agent that loads two fields during a push may see one from after the write and one from before (R93). -/
def Obligations.ATornReadIsPossible : Prop :=
  ∃ s t : State, s.bridgeValid = true ∧ exec (.wrFsel0 4 1) s = .next t ∧
    t.extSeen = [(.fsel 0, FselRegs.get t.regs.fsel 0), (.outstate 0, Bank.get s.regs.outstate 0)] ∧
    FselRegs.get t.regs.fsel 0 ≠ FselRegs.get s.regs.fsel 0 ∧
    Bank.get t.regs.outstate 0 ≠ Bank.get s.regs.outstate 0

/-- The narrow index of an external collaborator names the native pin of the table, with its function field and its bank bit (R128). The native
pin is the source's; the function field and the bank bit are what the spec derives from R123 and R124. -/
def Obligations.NarrowIndexTable : Prop :=
  (List.finRange 8).map (fun i => (narrowPin i, fselReg (narrowPin i), fselShift (narrowPin i), bankReg (narrowPin i),
    bankBit (narrowPin i))) =
  [(17, 1, 21, 0, 17), (18, 1, 24, 0, 18), (21, 2, 3, 0, 21), (22, 2, 6, 0, 22), (23, 2, 9, 0, 23), (24, 2, 12, 0, 24),
   (25, 2, 15, 0, 25), (4, 0, 12, 0, 4)]
end

