-- ==== Sys2Proof/Laws/Memory.lean ====
section
/-! SUPPORT. The shared record (R76, R77): a byte read after a byte write, a word read after a word write in either byte order, and
the canonical form that every operation keeps. -/

namespace Sys2Proof.Machine

theorem Memory.get_erase (m : Memory) (a b : Nat) :
    Memory.get (Memory.erase m a) b = if b = a then Memory.fresh else Memory.get m b := by
  induction m with
  | nil => simp [Memory.erase, Memory.get]
  | cons c rest ih =>
    obtain ⟨k, w⟩ := c
    by_cases hk : k = a
    · subst hk
      by_cases hb : b = k
      · subst hb; simpa [Memory.erase] using ih
      · simp [Memory.erase, Memory.get, ih, hb, Ne.symm hb]
    · by_cases hb : k = b
      · subst hb; simp [Memory.erase, Memory.get, hk]
      · simp [Memory.erase, Memory.get, hk, hb, ih]

theorem Memory.get_insert (m : Memory) (a : Nat) (v : Byte) (b : Nat) (hm : Memory.erase m a = m) :
    Memory.get (Memory.insert m a v) b = if b = a then v else Memory.get m b := by
  induction m with
  | nil => simp [Memory.insert, Memory.get, eq_comm]
  | cons c rest ih =>
    obtain ⟨k, w⟩ := c
    have hk : k ≠ a := by
      intro hk
      have hlen := congrArg List.length hm
      have hle : ∀ m : Memory, (Memory.erase m a).length ≤ m.length := by
        intro m
        induction m with
        | nil => simp [Memory.erase]
        | cons c rest ih =>
          obtain ⟨k, w⟩ := c
          by_cases h : k = a <;> simp [Memory.erase, h] <;> omega
      have := hle rest
      simp [Memory.erase, hk] at hlen
      omega
    have hrest : Memory.erase rest a = rest := by simpa [Memory.erase, hk] using hm
    by_cases hlt : a < k
    · simp [Memory.insert, Memory.get, hlt, eq_comm]
    · by_cases hb : k = b
      · subst hb; simp [Memory.insert, Memory.get, hlt, hk]
      · simp [Memory.insert, Memory.get, hlt, hb, ih hrest]

theorem Memory.erase_erase (m : Memory) (a : Nat) : Memory.erase (Memory.erase m a) a = Memory.erase m a := by
  induction m with
  | nil => rfl
  | cons c rest ih =>
    obtain ⟨k, w⟩ := c
    by_cases hk : k = a <;> simp [Memory.erase, hk, ih]

/-- A byte after a byte was written: the one at that address is the value, every other as before. -/
theorem Memory.get_set (m : Memory) (a : Nat) (v : Byte) (b : Nat) :
    Memory.get (Memory.set m a v) b = if b = a then v else Memory.get m b := by
  unfold Memory.set
  by_cases hv : v = Memory.fresh
  · simp only [hv, if_true]; exact Memory.get_erase m a b
  · rw [if_neg hv, Memory.get_insert _ _ _ _ (Memory.erase_erase m a), Memory.get_erase]
    by_cases hb : b = a <;> simp [hb]

/-- A byte after four bytes were written. -/
theorem Memory.get_setFour (m : Memory) (a : Nat) (x0 x1 x2 x3 : Byte) (b : Nat) :
    Memory.get (Memory.setFour m a x0 x1 x2 x3) b =
      if b = a + 3 then x3 else if b = a + 2 then x2 else if b = a + 1 then x1 else if b = a then x0
      else Memory.get m b := by
  simp only [Memory.setFour, Memory.get_set]

/-- A byte outside the four that a word write stores to. -/
theorem Memory.get_writeWord_of_outside (m : Memory) (e : Config.Endian) (a : Nat) (v : Word) (b : Nat)
    (h : b < a ∨ a + 4 ≤ b) : Memory.get (Memory.writeWord m e a v) b = Memory.get m b := by
  have h3 : b ≠ a + 3 := by omega
  have h2 : b ≠ a + 2 := by omega
  have h1 : b ≠ a + 1 := by omega
  have h0 : b ≠ a := by omega
  cases e <;> simp [Memory.writeWord, Memory.get_setFour, h0, h1, h2, h3]

/-- The four bytes of a word make the word. -/
theorem wordOf_byteOf (v : Word) : wordOf (byteOf v 0) (byteOf v 1) (byteOf v 2) (byteOf v 3) = v := by
  apply BitVec.eq_of_getLsbD_eq
  intro j hj
  have h8 : ∀ n, n < 8 → (decide (n < 8)) = true := fun n h => by simp [h]
  simp only [wordOf, byteOf, BitVec.getLsbD_append, BitVec.getLsbD_extractLsb']
  by_cases h0 : j < 8
  · simp [h0]
  · by_cases h1 : j - 8 < 8
    · simp [h0, h1, show 8 + (j - 8) = j from by omega]
    · by_cases h2 : j - 8 - 8 < 8
      · simp [h0, h1, h2, show 16 + (j - 8 - 8) = j from by omega]
      · simp [h0, h1, h2, show 24 + (j - 8 - 8 - 8) = j from by omega, show j - 8 - 8 - 8 < 8 from by omega]

/-- A word after a word was written to the same address (R97). -/
theorem Memory.readWord_writeWord_same (m : Memory) (e : Config.Endian) (a : Nat) (v : Word) :
    Memory.readWord (Memory.writeWord m e a v) e a = v := by
  cases e <;> simp [Memory.readWord, Memory.writeWord, Memory.get_setFour, wordOf_byteOf]

/-- A word after a word was written to an address that does not overlap it. -/
theorem Memory.readWord_writeWord_of_apart (m : Memory) (e : Config.Endian) (a : Nat) (v : Word) (b : Nat)
    (h : b + 4 ≤ a ∨ a + 4 ≤ b) : Memory.readWord (Memory.writeWord m e a v) e b = Memory.readWord m e b := by
  have get k (hk : k < 4) : Memory.get (Memory.writeWord m e a v) (b + k) = Memory.get m (b + k) :=
    Memory.get_writeWord_of_outside m e a v (b + k) (by omega)
  have g0 := get 0 (by omega)
  have g1 := get 1 (by omega)
  have g2 := get 2 (by omega)
  have g3 := get 3 (by omega)
  cases e <;> simp only [Memory.readWord] at * <;> simp_all

/-- Fields at different positions do not overlap (R76). -/
theorem ShmField.apart_of_ne {f g : ShmField} (h : f ≠ g) : f.addr + 4 ≤ g.addr ∨ g.addr + 4 ≤ f.addr := by
  have hi : f.index ≠ g.index := by
    intro e
    apply h
    cases f <;> cases g <;> simp only [ShmField.index] at e <;>
      first
        | (congr 1; exact Fin.ext (by omega))
        | omega
  simp only [ShmField.addr]
  omega

theorem ShmField.addr_lt (f : ShmField) : f.addr + 4 ≤ Config.SHM_BYTES := by
  cases f <;> simp only [ShmField.addr, ShmField.index, Config.SHM_BYTES] <;> omega

/-- `ShmRead` after `ShmWrite` (R76, R97). -/
theorem State.shmRead_shmWrite (s : State) (f g : ShmField) (v : Word) :
    (s.shmWrite f v).shmRead g = if g = f then v else s.shmRead g := by
  unfold State.shmRead State.shmWrite
  by_cases h : g = f
  · simp only [h, if_true]; exact Memory.readWord_writeWord_same _ _ _ _
  · rw [if_neg h]
    exact Memory.readWord_writeWord_of_apart _ _ _ _ _ (ShmField.apart_of_ne h)

/-! The canonical form. -/

theorem Memory.wfFrom_mono {low low' : Nat} {m : Memory} (h : Memory.wfFrom low m = true) (hl : low' ≤ low) :
    Memory.wfFrom low' m = true := by
  cases m with
  | nil => rfl
  | cons c rest =>
    obtain ⟨k, w⟩ := c
    simp only [Memory.wfFrom, Bool.and_eq_true, decide_eq_true_eq] at h ⊢
    exact ⟨⟨⟨by omega, h.1.1.2⟩, h.1.2⟩, h.2⟩

theorem Memory.wfFrom_erase {low : Nat} {m : Memory} (a : Nat) (h : Memory.wfFrom low m = true) :
    Memory.wfFrom low (Memory.erase m a) = true := by
  induction m generalizing low with
  | nil => rfl
  | cons c rest ih =>
    obtain ⟨k, w⟩ := c
    simp only [Memory.wfFrom, Bool.and_eq_true, decide_eq_true_eq] at h
    by_cases hk : k = a
    · simp only [Memory.erase, hk, if_true]
      exact Memory.wfFrom_mono (ih h.2) (by omega)
    · simp only [Memory.erase, hk, if_false, Memory.wfFrom, Bool.and_eq_true, decide_eq_true_eq]
      exact ⟨h.1, ih h.2⟩

theorem Memory.wfFrom_insert {low : Nat} {m : Memory} {a : Nat} {v : Byte} (h : Memory.wfFrom low m = true)
    (hm : Memory.get m a = Memory.fresh) (hl : low ≤ a) (ha : a < Config.SHM_BYTES) (hv : v ≠ Memory.fresh) :
    Memory.wfFrom low (Memory.insert m a v) = true := by
  induction m generalizing low with
  | nil => simp [Memory.insert, Memory.wfFrom, hl, ha, hv]
  | cons c rest ih =>
    obtain ⟨k, w⟩ := c
    simp only [Memory.wfFrom, Bool.and_eq_true, decide_eq_true_eq] at h
    by_cases hlt : a < k
    · simp only [Memory.insert, hlt, if_true, Memory.wfFrom, Bool.and_eq_true, decide_eq_true_eq]
      exact ⟨⟨⟨hl, ha⟩, hv⟩, ⟨⟨by omega, h.1.1.2⟩, h.1.2⟩, h.2⟩
    · have hk : k ≠ a := by
        intro hk
        simp only [Memory.get, hk, if_true] at hm
        exact h.1.2 hm
      have hrest : Memory.get rest a = Memory.fresh := by simpa [Memory.get, hk] using hm
      simp only [Memory.insert, hlt, if_false, Memory.wfFrom, Bool.and_eq_true, decide_eq_true_eq]
      exact ⟨h.1, ih h.2 hrest (by omega)⟩

/-- A byte write inside the record keeps the canonical form. -/
theorem Memory.wf_set {m : Memory} (a : Nat) (v : Byte) (h : Memory.wf m = true) (ha : a < Config.SHM_BYTES) :
    Memory.wf (Memory.set m a v) = true := by
  unfold Memory.set
  by_cases hv : v = Memory.fresh
  · simp only [hv, if_true]; exact Memory.wfFrom_erase a h
  · rw [if_neg hv]
    exact Memory.wfFrom_insert (Memory.wfFrom_erase a h) (by simp [Memory.get_erase]) (by omega) ha hv

/-- A word write inside the record keeps the canonical form. -/
theorem Memory.wf_writeWord {m : Memory} (e : Config.Endian) (a : Nat) (v : Word) (h : Memory.wf m = true)
    (ha : a + 4 ≤ Config.SHM_BYTES) : Memory.wf (Memory.writeWord m e a v) = true := by
  have four x0 x1 x2 x3 : Memory.wf (Memory.setFour m a x0 x1 x2 x3) = true :=
    Memory.wf_set _ _ (Memory.wf_set _ _ (Memory.wf_set _ _ (Memory.wf_set _ _ h (by omega)) (by omega)) (by omega)) (by omega)
  cases e
  · exact four _ _ _ _
  · exact four _ _ _ _

/-- A store to a field keeps the canonical form. -/
theorem State.wf_shmWrite {s : State} (f : ShmField) (v : Word) (h : Memory.wf s.shm = true) :
    Memory.wf (s.shmWrite f v).shm = true :=
  Memory.wf_writeWord _ _ _ h f.addr_lt

/-- Right after reset the shared record is in canonical form. -/
theorem wf_reset : Memory.wf State.reset.shm = true := rfl

end Sys2Proof.Machine
end

