-- ==== Sys2Proof/Laws/Operands.lean ====
section
/-! SUPPORT. The pin maps (R123, R124): reads of one bit after a write of one bit, reads of one register after a write of one
register, and when two banks are equal. -/

namespace Sys2Proof

theorem bankBit_lt (p : Pin) : bankBit p < 32 := Nat.mod_lt _ (by decide)

/-- Two pins share register and bit only when they are the same pin (R124). -/
theorem pin_eq_of_place {p q : Pin} (hr : bankReg p = bankReg q) (hb : bankBit p = bankBit q) : p = q := by
  have hr' : p.val / 32 = q.val / 32 := congrArg Fin.val hr
  have hb' : p.val % 32 = q.val % 32 := hb
  apply Fin.ext
  omega

theorem mem_pins (p : Pin) : p ∈ pins := List.mem_finRange p

theorem pins_nodup : pins.Nodup := List.nodup_finRange 54

theorem length_pins : pins.length = 54 := List.length_finRange

/-- A bit of a word after `REG[b] <- x` (R10). -/
theorem getLsbD_setBit (w : Word) (b : Nat) (x : Bool) (hb : b < 32) (j : Nat) :
    (setBit w b x).getLsbD j = if j = b then x else w.getLsbD j := by
  unfold setBit
  cases x
  · simp only [Bool.false_eq_true, if_false, BitVec.getLsbD_and, BitVec.getLsbD_not, BitVec.getLsbD_shiftLeft,
      BitVec.getLsbD_one]
    by_cases hj : j = b
    · subst hj; simp [hb]
    · by_cases hlt : j < 32
      · simp only [hj, if_false, hlt, decide_true, Bool.true_and]
        by_cases hjb : j < b
        · simp [hjb]
        · have : j - b ≠ 0 := by omega
          simp [hjb, this]
      · simp [hj, BitVec.getLsbD_of_ge w j (by omega)]
  · simp only [if_true, BitVec.getLsbD_or, BitVec.getLsbD_shiftLeft, BitVec.getLsbD_one]
    by_cases hj : j = b
    · subst hj; simp [hb]
    · by_cases hjb : j < b
      · simp [hj, hjb]
      · have : j - b ≠ 0 := by omega
        simp [hj, this]

@[simp] theorem Bank.get_put_same (k : Bank) (r : Fin 2) (v : Word) : (k.put r v).get r = v := by
  match r with
  | 0 => rfl
  | 1 => rfl

theorem Bank.get_put_of_ne (k : Bank) {r q : Fin 2} (v : Word) (h : q ≠ r) : (k.put r v).get q = k.get q := by
  match r, q with
  | 0, 0 => exact absurd rfl h
  | 0, 1 => rfl
  | 1, 0 => rfl
  | 1, 1 => exact absurd rfl h

/-- Two banks are equal when both registers are. -/
theorem Bank.eq_of_get {k j : Bank} (h : ∀ r, k.get r = j.get r) : k = j := by
  cases k; cases j
  have h0 := h 0
  have h1 := h 1
  simp only [Bank.get] at h0 h1
  rw [h0, h1]

/-- A bit of a bank after one bit of it was written (R124, R10). -/
theorem Bank.getLsbD_setBit (k : Bank) (p : Pin) (x : Bool) (r : Fin 2) (j : Nat) :
    ((k.setBit p x).get r).getLsbD j = if r = bankReg p ∧ j = bankBit p then x else (k.get r).getLsbD j := by
  unfold Bank.setBit
  by_cases hr : r = bankReg p
  · subst hr
    rw [Bank.get_put_same, Sys2Proof.getLsbD_setBit _ _ _ (bankBit_lt p)]
    simp
  · rw [Bank.get_put_of_ne _ _ hr]
    simp [hr]

/-- The bit of a pin after the bit of a pin was written. -/
theorem Bank.bit_setBit (k : Bank) (p q : Pin) (x : Bool) : (k.setBit p x).bit q = if q = p then x else k.bit q := by
  unfold Bank.bit
  rw [Bank.getLsbD_setBit]
  by_cases h : q = p
  · simp [h]
  · have : ¬ (bankReg q = bankReg p ∧ bankBit q = bankBit p) := fun ⟨hr, hb⟩ => h (pin_eq_of_place hr hb)
    simp [h, this]

@[simp] theorem FselRegs.get_put_same (f : FselRegs) (n : Fin 6) (v : Word) : (f.put n v).get n = v := by
  match n with
  | 0 => rfl
  | 1 => rfl
  | 2 => rfl
  | 3 => rfl
  | 4 => rfl
  | 5 => rfl

theorem FselRegs.get_put_of_ne (f : FselRegs) {n m : Fin 6} (v : Word) (h : m ≠ n) : (f.put n v).get m = f.get m := by
  match n, m with
  | 0, 0 | 1, 1 | 2, 2 | 3, 3 | 4, 4 | 5, 5 => exact absurd rfl h
  | 0, 1 | 0, 2 | 0, 3 | 0, 4 | 0, 5 => rfl
  | 1, 0 | 1, 2 | 1, 3 | 1, 4 | 1, 5 => rfl
  | 2, 0 | 2, 1 | 2, 3 | 2, 4 | 2, 5 => rfl
  | 3, 0 | 3, 1 | 3, 2 | 3, 4 | 3, 5 => rfl
  | 4, 0 | 4, 1 | 4, 2 | 4, 3 | 4, 5 => rfl
  | 5, 0 | 5, 1 | 5, 2 | 5, 3 | 5, 4 => rfl

/-- Two function-select files are equal when all six registers are. -/
theorem FselRegs.eq_of_get {f g : FselRegs} (h : ∀ n, f.get n = g.get n) : f = g := by
  cases f; cases g
  have h0 := h 0
  have h1 := h 1
  have h2 := h 2
  have h3 := h 3
  have h4 := h 4
  have h5 := h 5
  simp only [FselRegs.get] at h0 h1 h2 h3 h4 h5
  rw [h0, h1, h2, h3, h4, h5]

end Sys2Proof

namespace Sys2Proof.Machine

/-- A register after a write of it (R125: the whole value is stored). -/
@[simp] theorem RegFile.read_write_same (f : RegFile) (reg : Reg) (v : Word) : (f.write reg v).read reg = v := by
  cases reg <;> simp [RegFile.read, RegFile.write]

/-- A register after a write of another: no two names denote the same storage (R21). -/
theorem RegFile.read_write_of_ne (f : RegFile) {reg reg' : Reg} (v : Word) (h : reg' ≠ reg) :
    (f.write reg v).read reg' = f.read reg' := by
  cases reg <;> cases reg' <;>
    first
      | rfl
      | exact absurd rfl h
      | (simp only [RegFile.read, RegFile.write]
         first
           | exact Bank.get_put_of_ne _ _ (fun e => h (by rw [e]))
           | exact FselRegs.get_put_of_ne _ _ (fun e => h (by rw [e])))

@[simp] theorem RegFile.write_outstate (f : RegFile) (reg : Reg) (v : Word) : (f.write reg v).outstate = f.outstate := by
  cases reg <;> rfl

@[simp] theorem RegFile.write_wcount (f : RegFile) (reg : Reg) (v : Word) : (f.write reg v).wcount = f.wcount := by
  cases reg <;> rfl

/-- Two register files are equal when every named register, the derived output pair and the counter are. -/
theorem RegFile.eq_of_read {f g : RegFile} (h : ∀ reg, f.read reg = g.read reg) (ho : f.outstate = g.outstate)
    (hw : f.wcount = g.wcount) : f = g := by
  cases f; cases g
  simp only [RegFile.mk.injEq]
  exact ⟨FselRegs.eq_of_get fun n => h (.fsel n), Bank.eq_of_get fun r => h (.gpset r),
    Bank.eq_of_get fun r => h (.gpclr r), Bank.eq_of_get fun r => h (.level r), Bank.eq_of_get fun r => h (.eds r),
    Bank.eq_of_get fun r => h (.ren r), Bank.eq_of_get fun r => h (.fen r), Bank.eq_of_get fun r => h (.hen r),
    Bank.eq_of_get fun r => h (.len r), Bank.eq_of_get fun r => h (.aren r), Bank.eq_of_get fun r => h (.afen r),
    h .pud, Bank.eq_of_get fun r => h (.pudclk r), ho, hw⟩

end Sys2Proof.Machine
end

