-- ==== Sys2Proof/Laws/State.lean ====
section
/-! SUPPORT. One lemma per field of `State` per update, true by rfl, so that no proof unfolds a record update. -/

namespace Sys2Proof.Machine

/-! `State.withRegs` -/

@[simp] theorem State.withRegs_regs (s : State) (f : RegFile) : (s.withRegs f).regs = f := rfl
@[simp] theorem State.withRegs_shm (s : State) (f : RegFile) : (s.withRegs f).shm = s.shm := rfl
@[simp] theorem State.withRegs_bridgeValid (s : State) (f : RegFile) : (s.withRegs f).bridgeValid = s.bridgeValid := rfl
@[simp] theorem State.withRegs_diag (s : State) (f : RegFile) : (s.withRegs f).diag = s.diag := rfl
@[simp] theorem State.withRegs_params (s : State) (f : RegFile) : (s.withRegs f).params = s.params := rfl
@[simp] theorem State.withRegs_inited (s : State) (f : RegFile) : (s.withRegs f).inited = s.inited := rfl
@[simp] theorem State.withRegs_result (s : State) (f : RegFile) : (s.withRegs f).result = s.result := rfl
@[simp] theorem State.withRegs_pending (s : State) (f : RegFile) : (s.withRegs f).pending = s.pending := rfl
@[simp] theorem State.withRegs_bursts (s : State) (f : RegFile) : (s.withRegs f).bursts = s.bursts := rfl
@[simp] theorem State.withRegs_orders (s : State) (f : RegFile) : (s.withRegs f).orders = s.orders := rfl
@[simp] theorem State.withRegs_pullOrders (s : State) (f : RegFile) : (s.withRegs f).pullOrders = s.pullOrders := rfl
@[simp] theorem State.withRegs_extSeen (s : State) (f : RegFile) : (s.withRegs f).extSeen = s.extSeen := rfl
@[simp] theorem State.withRegs_draws (s : State) (f : RegFile) : (s.withRegs f).draws = s.draws := rfl

/-! `State.emit` -/

@[simp] theorem State.emit_regs (s : State) (r : Diag) : (s.emit r).regs = s.regs := rfl
@[simp] theorem State.emit_shm (s : State) (r : Diag) : (s.emit r).shm = s.shm := rfl
@[simp] theorem State.emit_bridgeValid (s : State) (r : Diag) : (s.emit r).bridgeValid = s.bridgeValid := rfl
@[simp] theorem State.emit_diag (s : State) (r : Diag) : (s.emit r).diag = s.diag ++ [r] := rfl
@[simp] theorem State.emit_params (s : State) (r : Diag) : (s.emit r).params = s.params := rfl
@[simp] theorem State.emit_inited (s : State) (r : Diag) : (s.emit r).inited = s.inited := rfl
@[simp] theorem State.emit_result (s : State) (r : Diag) : (s.emit r).result = s.result := rfl
@[simp] theorem State.emit_pending (s : State) (r : Diag) : (s.emit r).pending = s.pending := rfl
@[simp] theorem State.emit_bursts (s : State) (r : Diag) : (s.emit r).bursts = s.bursts := rfl
@[simp] theorem State.emit_orders (s : State) (r : Diag) : (s.emit r).orders = s.orders := rfl
@[simp] theorem State.emit_pullOrders (s : State) (r : Diag) : (s.emit r).pullOrders = s.pullOrders := rfl
@[simp] theorem State.emit_extSeen (s : State) (r : Diag) : (s.emit r).extSeen = s.extSeen := rfl
@[simp] theorem State.emit_draws (s : State) (r : Diag) : (s.emit r).draws = s.draws := rfl

/-! `State.deliver` -/

@[simp] theorem State.deliver_regs (s : State) (r : Result) : (s.deliver r).regs = s.regs := rfl
@[simp] theorem State.deliver_shm (s : State) (r : Result) : (s.deliver r).shm = s.shm := rfl
@[simp] theorem State.deliver_bridgeValid (s : State) (r : Result) : (s.deliver r).bridgeValid = s.bridgeValid := rfl
@[simp] theorem State.deliver_diag (s : State) (r : Result) : (s.deliver r).diag = s.diag := rfl
@[simp] theorem State.deliver_params (s : State) (r : Result) : (s.deliver r).params = s.params := rfl
@[simp] theorem State.deliver_inited (s : State) (r : Result) : (s.deliver r).inited = s.inited := rfl
@[simp] theorem State.deliver_result (s : State) (r : Result) : (s.deliver r).result = r := rfl
@[simp] theorem State.deliver_pending (s : State) (r : Result) : (s.deliver r).pending = s.pending := rfl
@[simp] theorem State.deliver_bursts (s : State) (r : Result) : (s.deliver r).bursts = s.bursts := rfl
@[simp] theorem State.deliver_orders (s : State) (r : Result) : (s.deliver r).orders = s.orders := rfl
@[simp] theorem State.deliver_pullOrders (s : State) (r : Result) : (s.deliver r).pullOrders = s.pullOrders := rfl
@[simp] theorem State.deliver_extSeen (s : State) (r : Result) : (s.deliver r).extSeen = s.extSeen := rfl
@[simp] theorem State.deliver_draws (s : State) (r : Result) : (s.deliver r).draws = s.draws := rfl

/-! `State.shmWrite` -/

@[simp] theorem State.shmWrite_regs (s : State) (f : ShmField) (v : Word) : (s.shmWrite f v).regs = s.regs := rfl
@[simp] theorem State.shmWrite_shm (s : State) (f : ShmField) (v : Word) : (s.shmWrite f v).shm = Memory.writeWord s.shm s.params.shmEndian f.addr v := rfl
@[simp] theorem State.shmWrite_bridgeValid (s : State) (f : ShmField) (v : Word) : (s.shmWrite f v).bridgeValid = s.bridgeValid := rfl
@[simp] theorem State.shmWrite_diag (s : State) (f : ShmField) (v : Word) : (s.shmWrite f v).diag = s.diag := rfl
@[simp] theorem State.shmWrite_params (s : State) (f : ShmField) (v : Word) : (s.shmWrite f v).params = s.params := rfl
@[simp] theorem State.shmWrite_inited (s : State) (f : ShmField) (v : Word) : (s.shmWrite f v).inited = s.inited := rfl
@[simp] theorem State.shmWrite_result (s : State) (f : ShmField) (v : Word) : (s.shmWrite f v).result = s.result := rfl
@[simp] theorem State.shmWrite_pending (s : State) (f : ShmField) (v : Word) : (s.shmWrite f v).pending = s.pending := rfl
@[simp] theorem State.shmWrite_bursts (s : State) (f : ShmField) (v : Word) : (s.shmWrite f v).bursts = s.bursts := rfl
@[simp] theorem State.shmWrite_orders (s : State) (f : ShmField) (v : Word) : (s.shmWrite f v).orders = s.orders := rfl
@[simp] theorem State.shmWrite_pullOrders (s : State) (f : ShmField) (v : Word) : (s.shmWrite f v).pullOrders = s.pullOrders := rfl
@[simp] theorem State.shmWrite_extSeen (s : State) (f : ShmField) (v : Word) : (s.shmWrite f v).extSeen = s.extSeen := rfl
@[simp] theorem State.shmWrite_draws (s : State) (f : ShmField) (v : Word) : (s.shmWrite f v).draws = s.draws := rfl

/-! `State.setLevel` -/

@[simp] theorem State.setLevel_regs (s : State) (p : Pin) (x : Bool) : (s.setLevel p x).regs = { s.regs with level := Bank.setBit s.regs.level p x } := rfl
@[simp] theorem State.setLevel_shm (s : State) (p : Pin) (x : Bool) : (s.setLevel p x).shm = s.shm := rfl
@[simp] theorem State.setLevel_bridgeValid (s : State) (p : Pin) (x : Bool) : (s.setLevel p x).bridgeValid = s.bridgeValid := rfl
@[simp] theorem State.setLevel_diag (s : State) (p : Pin) (x : Bool) : (s.setLevel p x).diag = s.diag := rfl
@[simp] theorem State.setLevel_params (s : State) (p : Pin) (x : Bool) : (s.setLevel p x).params = s.params := rfl
@[simp] theorem State.setLevel_inited (s : State) (p : Pin) (x : Bool) : (s.setLevel p x).inited = s.inited := rfl
@[simp] theorem State.setLevel_result (s : State) (p : Pin) (x : Bool) : (s.setLevel p x).result = s.result := rfl
@[simp] theorem State.setLevel_pending (s : State) (p : Pin) (x : Bool) : (s.setLevel p x).pending = s.pending := rfl
@[simp] theorem State.setLevel_bursts (s : State) (p : Pin) (x : Bool) : (s.setLevel p x).bursts = s.bursts := rfl
@[simp] theorem State.setLevel_orders (s : State) (p : Pin) (x : Bool) : (s.setLevel p x).orders = s.orders := rfl
@[simp] theorem State.setLevel_pullOrders (s : State) (p : Pin) (x : Bool) : (s.setLevel p x).pullOrders = s.pullOrders := rfl
@[simp] theorem State.setLevel_extSeen (s : State) (p : Pin) (x : Bool) : (s.setLevel p x).extSeen = s.extSeen := rfl
@[simp] theorem State.setLevel_draws (s : State) (p : Pin) (x : Bool) : (s.setLevel p x).draws = s.draws := rfl

/-! `State.countWrite` -/

@[simp] theorem State.countWrite_regs (s : State) : s.countWrite.regs = { s.regs with wcount := s.regs.wcount + 1 } := rfl
@[simp] theorem State.countWrite_shm (s : State) : s.countWrite.shm = s.shm := rfl
@[simp] theorem State.countWrite_bridgeValid (s : State) : s.countWrite.bridgeValid = s.bridgeValid := rfl
@[simp] theorem State.countWrite_diag (s : State) : s.countWrite.diag = s.diag := rfl
@[simp] theorem State.countWrite_params (s : State) : s.countWrite.params = s.params := rfl
@[simp] theorem State.countWrite_inited (s : State) : s.countWrite.inited = s.inited := rfl
@[simp] theorem State.countWrite_result (s : State) : s.countWrite.result = s.result := rfl
@[simp] theorem State.countWrite_pending (s : State) : s.countWrite.pending = s.pending := rfl
@[simp] theorem State.countWrite_bursts (s : State) : s.countWrite.bursts = s.bursts := rfl
@[simp] theorem State.countWrite_orders (s : State) : s.countWrite.orders = s.orders := rfl
@[simp] theorem State.countWrite_pullOrders (s : State) : s.countWrite.pullOrders = s.pullOrders := rfl
@[simp] theorem State.countWrite_extSeen (s : State) : s.countWrite.extSeen = s.extSeen := rfl
@[simp] theorem State.countWrite_draws (s : State) : s.countWrite.draws = s.draws := rfl

/-! `State.withPending` -/

@[simp] theorem State.withPending_regs (s : State) (rest : List Input) : (s.withPending rest).regs = s.regs := rfl
@[simp] theorem State.withPending_shm (s : State) (rest : List Input) : (s.withPending rest).shm = s.shm := rfl
@[simp] theorem State.withPending_bridgeValid (s : State) (rest : List Input) : (s.withPending rest).bridgeValid = s.bridgeValid := rfl
@[simp] theorem State.withPending_diag (s : State) (rest : List Input) : (s.withPending rest).diag = s.diag := rfl
@[simp] theorem State.withPending_params (s : State) (rest : List Input) : (s.withPending rest).params = s.params := rfl
@[simp] theorem State.withPending_inited (s : State) (rest : List Input) : (s.withPending rest).inited = s.inited := rfl
@[simp] theorem State.withPending_result (s : State) (rest : List Input) : (s.withPending rest).result = s.result := rfl
@[simp] theorem State.withPending_pending (s : State) (rest : List Input) : (s.withPending rest).pending = rest := rfl
@[simp] theorem State.withPending_bursts (s : State) (rest : List Input) : (s.withPending rest).bursts = s.bursts := rfl
@[simp] theorem State.withPending_orders (s : State) (rest : List Input) : (s.withPending rest).orders = s.orders := rfl
@[simp] theorem State.withPending_pullOrders (s : State) (rest : List Input) : (s.withPending rest).pullOrders = s.pullOrders := rfl
@[simp] theorem State.withPending_extSeen (s : State) (rest : List Input) : (s.withPending rest).extSeen = s.extSeen := rfl
@[simp] theorem State.withPending_draws (s : State) (rest : List Input) : (s.withPending rest).draws = s.draws := rfl

/-! `State.derive` -/

@[simp] theorem State.derive_regs (s : State) : s.derive.regs = deriveRegs s.params.tieClearsClr s.regs := rfl
@[simp] theorem State.derive_shm (s : State) : s.derive.shm = s.shm := rfl
@[simp] theorem State.derive_bridgeValid (s : State) : s.derive.bridgeValid = s.bridgeValid := rfl
@[simp] theorem State.derive_diag (s : State) : s.derive.diag = s.diag := rfl
@[simp] theorem State.derive_params (s : State) : s.derive.params = s.params := rfl
@[simp] theorem State.derive_inited (s : State) : s.derive.inited = s.inited := rfl
@[simp] theorem State.derive_result (s : State) : s.derive.result = s.result := rfl
@[simp] theorem State.derive_pending (s : State) : s.derive.pending = s.pending := rfl
@[simp] theorem State.derive_bursts (s : State) : s.derive.bursts = s.bursts := rfl
@[simp] theorem State.derive_orders (s : State) : s.derive.orders = s.orders := rfl
@[simp] theorem State.derive_pullOrders (s : State) : s.derive.pullOrders = s.pullOrders := rfl
@[simp] theorem State.derive_extSeen (s : State) : s.derive.extSeen = s.extSeen := rfl
@[simp] theorem State.derive_draws (s : State) : s.derive.draws = s.draws := rfl

end Sys2Proof.Machine
end

