-- ==== Sys2Proof/Laws/Bridge.lean ====
section
/-! SUPPORT. The external agent's turns, the pull and the push: what each changes and what it leaves unchanged. -/

namespace Sys2Proof.Machine

/-! The external agent. -/

/-- An access of the external agent changes the shared record and what the agent has seen, nothing else (R92). -/
theorem extAccess_frame (s : State) (a : ExtAccess) :
    s.extAccess a = { s with shm := (s.extAccess a).shm, extSeen := (s.extAccess a).extSeen } := by
  cases a <;> rfl

theorem foldl_extAccess_frame (l : List ExtAccess) (s : State) :
    l.foldl State.extAccess s =
      { s with shm := (l.foldl State.extAccess s).shm, extSeen := (l.foldl State.extAccess s).extSeen } := by
  induction l generalizing s with
  | nil => rfl
  | cons a rest ih =>
    rw [List.foldl_cons, ih, extAccess_frame s a]

/-- A turn of the external agent changes the shared record, what the agent has seen, and uses up one entry of `bursts`. -/
theorem extTurn_frame (s : State) :
    s.extTurn = { s with shm := s.extTurn.shm, extSeen := s.extTurn.extSeen, bursts := s.bursts.tail } := by
  unfold State.extTurn
  split
  · next h => cases s; simp_all
  · next burst rest h =>
    rw [foldl_extAccess_frame]
    simp [h]

@[simp] theorem extTurn_regs (s : State) : s.extTurn.regs = s.regs := by rw [extTurn_frame]
@[simp] theorem extTurn_params (s : State) : s.extTurn.params = s.params := by rw [extTurn_frame]
@[simp] theorem extTurn_bridgeValid (s : State) : s.extTurn.bridgeValid = s.bridgeValid := by rw [extTurn_frame]
@[simp] theorem extTurn_bursts (s : State) : s.extTurn.bursts = s.bursts.tail := by rw [extTurn_frame]
@[simp] theorem extTurn_orders (s : State) : s.extTurn.orders = s.orders := by rw [extTurn_frame]
@[simp] theorem extTurn_pending (s : State) : s.extTurn.pending = s.pending := by rw [extTurn_frame]

/-- The agent's accesses do not depend on the register file. -/
theorem foldl_extAccess_withRegs (l : List ExtAccess) (s : State) (f : RegFile) :
    l.foldl State.extAccess (s.withRegs f) = (l.foldl State.extAccess s).withRegs f := by
  induction l generalizing s with
  | nil => rfl
  | cons a rest ih =>
    rw [List.foldl_cons, List.foldl_cons, ← ih]
    cases a <;> rfl

theorem extTurn_withRegs (s : State) (f : RegFile) : (s.withRegs f).extTurn = s.extTurn.withRegs f := by
  unfold State.extTurn
  simp only [State.withRegs_bursts]
  split
  · rfl
  · next burst rest h => exact foldl_extAccess_withRegs burst { s with bursts := rest } f

@[simp] theorem withRegs_withRegs (s : State) (f g : RegFile) : (s.withRegs f).withRegs g = s.withRegs g := rfl

theorem turns_withRegs (n : Nat) (s : State) (f : RegFile) : turns n (s.withRegs f) = (turns n s).withRegs f := by
  induction n generalizing s with
  | zero => rfl
  | succ n ih => rw [turns, turns, extTurn_withRegs, ih]

/-- What the agent's turns alone change. -/
theorem turns_frame (n : Nat) (s : State) :
    turns n s = { s with shm := (turns n s).shm, extSeen := (turns n s).extSeen, bursts := s.bursts.drop n } := by
  induction n generalizing s with
  | zero => rfl
  | succ n ih =>
    rw [turns, ih, extTurn_frame s]
    simp [List.drop_tail]

@[simp] theorem turns_regs (n : Nat) (s : State) : (turns n s).regs = s.regs := by rw [turns_frame]
@[simp] theorem turns_params (n : Nat) (s : State) : (turns n s).params = s.params := by rw [turns_frame]

/-- With no accesses of the agent to come, its turns change nothing. -/
theorem extTurn_quiet {s : State} (h : s.bursts = []) : s.extTurn = s := by
  unfold State.extTurn
  split
  · rfl
  · next h' => rw [h] at h'; exact absurd h' (by simp)

theorem turns_quiet (n : Nat) {s : State} (h : s.bursts = []) : turns n s = s := by
  induction n with
  | zero => rfl
  | succ n ih => rw [turns, extTurn_quiet h, ih]

/-- What the agent's turns make of the shared record depends on the record and on the turns alone. -/
theorem turns_shm_congr (n : Nat) {s t : State} (hp : s.params = t.params) (hb : s.bursts = t.bursts)
    (hm : s.shm = t.shm) : (turns n s).shm = (turns n t).shm := by
  have acc : ∀ (l : List ExtAccess) (s t : State), s.params = t.params → s.shm = t.shm →
      (l.foldl State.extAccess s).shm = (l.foldl State.extAccess t).shm := by
    intro l
    induction l with
    | nil => intro s t _ hm; exact hm
    | cons a rest ih =>
      intro s t hp hm
      cases a with
      | load f => exact ih _ _ hp hm
      | store f v => exact ih _ _ hp (by simp [State.extAccess, hp, hm])
  have turn : ∀ s t : State, s.params = t.params → s.bursts = t.bursts → s.shm = t.shm →
      s.extTurn.shm = t.extTurn.shm := by
    intro s t hp hb hm
    unfold State.extTurn
    rw [hb]
    split
    · exact hm
    · next burst rest _ => exact acc burst { s with bursts := rest } { t with bursts := rest } hp hm
  induction n generalizing s t with
  | zero => exact hm
  | succ n ih => exact ih (by simpa using hp) (by simp [hb]) (turn s t hp hb hm)

/-- The agent's turns and the order of the next pull do not interact. -/
theorem turns_withPullOrders (n : Nat) (s : State) (x : List (List Pin)) :
    turns n { s with pullOrders := x } = { turns n s with pullOrders := x } := by
  have acc : ∀ (l : List ExtAccess) (s : State),
      l.foldl State.extAccess { s with pullOrders := x } = { l.foldl State.extAccess s with pullOrders := x } := by
    intro l
    induction l with
    | nil => intro s; rfl
    | cons a rest ih =>
      intro s
      rw [List.foldl_cons, List.foldl_cons, ← ih]
      cases a <;> rfl
  induction n generalizing s with
  | zero => rfl
  | succ n ih =>
    rw [turns, turns, ← ih]
    congr 1
    obtain ⟨regs, shm, valid, diag, params, inited, result, pending, bursts, orders, pullOrders, extSeen, draws⟩ := s
    cases bursts with
    | nil => rfl
    | cons burst rest => exact acc burst ⟨regs, shm, valid, diag, params, inited, result, pending, rest, orders, pullOrders, extSeen, draws⟩

/-! The pull. -/

/-- The level bank after the pull for a list of pins, as the loads come one after another (R163). -/
def pulledLevel (f : FselRegs) : List Pin → State → Bank → Bank
  | [], _, k => k
  | p :: rest, s, k =>
    if isInput f p then
      pulledLevel f rest s.extTurn
        (Bank.setBit k p ((s.extTurn.shmRead (.level (bankReg p))).getLsbD (bankBit p)))
    else pulledLevel f rest s k

theorem shmRead_withRegs (s : State) (f : RegFile) (x : ShmField) : (s.withRegs f).shmRead x = s.shmRead x := rfl

/-- The pull for a list of pins: the agent's turns, one for each Input pin of the list, and the level bank (R163). -/
theorem foldl_pullPin (l : List Pin) (s : State) :
    l.foldl pullPin s =
      (turns (l.countP (isInput s.regs.fsel)) s).withRegs
        { s.regs with level := pulledLevel s.regs.fsel l s s.regs.level } := by
  induction l generalizing s with
  | nil => rfl
  | cons p rest ih =>
    rw [List.foldl_cons, ih]
    unfold pullPin
    by_cases h : isInput s.regs.fsel p
    · simp only [h, if_true, State.setLevel, State.withRegs_regs, extTurn_regs, List.countP_cons_of_pos,
        turns, pulledLevel]
      rw [turns_withRegs, withRegs_withRegs]
      congr 2
      generalize Bank.setBit s.regs.level p _ = k
      have : ∀ (l : List Pin) (f : FselRegs) (s : State) (g : RegFile) (k : Bank),
          pulledLevel f l (s.withRegs g) k = pulledLevel f l s k := by
        intro l
        induction l with
        | nil => intros; rfl
        | cons q rest ih =>
          intro f s g k
          simp only [pulledLevel, extTurn_withRegs, shmRead_withRegs, ih]
      exact this _ _ _ _ _
    · simp only [h, pulledLevel]
      simp [h]

/-- A bit of the level bank that is no Input pin of the list is kept (R163). -/
theorem pulledLevel_kept (f : FselRegs) (l : List Pin) (s : State) (k : Bank) (r : Fin 2) (j : Nat)
    (h : ∀ p ∈ l, isInput f p = true → ¬ (r = bankReg p ∧ j = bankBit p)) :
    (Bank.get (pulledLevel f l s k) r).getLsbD j = (Bank.get k r).getLsbD j := by
  induction l generalizing s k with
  | nil => rfl
  | cons p rest ih =>
    have hrest := fun q hq => h q (List.mem_cons_of_mem p hq)
    unfold pulledLevel
    split
    · next hi =>
      rw [ih _ _ hrest, Bank.getLsbD_setBit, if_neg (h p (List.mem_cons_self) hi)]
    · exact ih _ _ hrest

/-- An Input pin of the list takes the bit its shared field holds after the agent's turn before that load (R163, R91). -/
theorem pulledLevel_input (f : FselRegs) (l₁ l₂ : List Pin) (p : Pin) (hl : (l₁ ++ p :: l₂).Nodup) (s : State) (k : Bank)
    (hi : isInput f p = true) :
    Bank.bit (pulledLevel f (l₁ ++ p :: l₂) s k) p =
      ((turns (l₁.countP (isInput f) + 1) s).shmRead (.level (bankReg p))).getLsbD (bankBit p) := by
  induction l₁ generalizing s k with
  | nil =>
    simp only [List.nil_append, pulledLevel, hi, if_true, List.countP_nil]
    have hp : p ∉ l₂ := (List.nodup_cons.mp hl).1
    unfold Bank.bit
    rw [pulledLevel_kept, Bank.getLsbD_setBit]
    · simp [turns]
    · intro q hq _ ⟨hr, hj⟩
      exact hp (pin_eq_of_place hr hj ▸ hq)
  | cons q rest ih =>
    have hrest : (rest ++ p :: l₂).Nodup := (List.nodup_cons.mp hl).2
    by_cases hq : isInput f q
    · simp only [List.cons_append, pulledLevel, hq, if_true, List.countP_cons_of_pos]
      rw [ih hrest]
      rfl
    · simp only [List.cons_append, pulledLevel, hq]
      rw [if_neg (by simp), ih hrest]
      simp [hq]

/-- A list up to an element of it, that element, and what follows. -/
theorem takeWhile_split {l : List Pin} {p : Pin} (h : p ∈ l) :
    ∃ rest, l = l.takeWhile (fun q => decide (q ≠ p)) ++ p :: rest := by
  induction l with
  | nil => exact absurd h (by simp)
  | cons q l ih =>
    by_cases hq : q = p
    · exact ⟨l, by simp [hq]⟩
    · obtain ⟨rest, hr⟩ := ih ((List.mem_cons.mp h).resolve_left (Ne.symm hq))
      refine ⟨rest, ?_⟩
      rw [List.takeWhile_cons_of_pos (by simp [hq]), List.cons_append, ← hr]

/-- What is done in the order the environment names is a rearrangement of what is to do, whatever it names (R90, R91). -/
theorem arrange_perm {α : Type} [DecidableEq α] (order todo : List α) : (arrange order todo).Perm todo := by
  induction order generalizing todo with
  | nil => exact List.Perm.refl _
  | cons f rest ih =>
    unfold arrange
    split
    · next h => exact ((ih (todo.erase f)).cons f).trans (List.perm_cons_erase h).symm
    · exact ih todo

/-- A pull comes to every pin once (R163). -/
theorem pullOrder_perm (s : State) : (pullOrder s).Perm pins := by
  unfold pullOrder
  split
  · exact List.Perm.refl _
  · exact arrange_perm _ _

/-- Everything the pull can do (R163, R166, R91). -/
theorem pull_effect (s : State) : PullEffect s s.pull := by
  cases hv : s.bridgeValid
  · have h : s.pull = s.emit (.bridgeSkipped .pull) := by simp [State.pull, hv]
    rw [h]
    exact ⟨fun _ => rfl, by simp [hv], by simp [hv], by simp [hv], by simp [hv]⟩
  · have hperm := pullOrder_perm s
    have hcount : (pullOrder s).countP (isInput s.regs.fsel) = inputCount s.regs.fsel := hperm.countP_eq _
    have h : s.pull = (turns (inputCount s.regs.fsel) { s with pullOrders := s.pullOrders.tail }).withRegs
        { s.regs with level := pulledLevel s.regs.fsel (pullOrder s) { s with pullOrders := s.pullOrders.tail } s.regs.level } := by
      simp only [State.pull, hv, if_true]
      rw [foldl_pullPin, hcount]
    rw [h]
    refine ⟨by simp [hv], fun _ p hi => ?_, fun _ p hi => ?_, fun _ r j hn => ?_, fun _ => ?_⟩
    · obtain ⟨rest, hl⟩ := takeWhile_split (hperm.mem_iff.mpr (List.mem_finRange p))
      have hnd := hperm.nodup_iff.mpr pins_nodup
      rw [hl] at hnd
      have := pulledLevel_input s.regs.fsel _ _ p hnd { s with pullOrders := s.pullOrders.tail } s.regs.level hi
      rw [← hl] at this
      refine this.trans ?_
      unfold State.shmRead inputsBefore
      rw [turns_shm_congr _ (s := { s with pullOrders := s.pullOrders.tail }) (t := s) rfl rfl rfl, turns_params, turns_params]
    · refine pulledLevel_kept _ _ _ _ _ _ fun q _ hq ⟨hr, hj⟩ => ?_
      have : p = q := pin_eq_of_place hr hj
      rw [this, hq] at hi
      exact absurd hi (by simp)
    · refine pulledLevel_kept _ _ _ _ _ _ fun q _ _ ⟨hr, hj⟩ => ?_
      have h32 : j < 32 := hj ▸ bankBit_lt q
      have h1 : q.val / 32 = 1 := by
        have := congrArg Fin.val (hr.symm.trans hn.1)
        exact this
      have h2 : j = q.val % 32 := hj
      have := hn.2
      omega
    · rw [turns_withPullOrders]
      rfl

/-! The push. -/

/-- The order in which the next push stores. -/
def nextOrder (s : State) : List ShmField :=
  match s.orders with
  | [] => pushedFields
  | order :: _ => arrange order pushedFields

theorem nextOrder_perm (s : State) : (nextOrder s).Perm pushedFields := by
  unfold nextOrder
  split
  · exact List.Perm.refl _
  · exact arrange_perm _ _

/-- The push as stores in that order. -/
theorem pushStores_eq (s : State) : pushStores s = (nextOrder s).foldl pushField { s with orders := s.orders.tail } := by
  unfold pushStores nextOrder
  split
  · next h => cases s; simp_all
  · next h => simp [h]

theorem pushField_frame (s : State) (f : ShmField) :
    pushField s f =
      { s with shm := (pushField s f).shm, extSeen := (pushField s f).extSeen, bursts := s.bursts.tail } := by
  unfold pushField State.shmWrite
  simp only
  rw [extTurn_frame]

/-- The stores of a push change the shared record and use up one turn each; the register file is not changed (R161). -/
theorem foldl_pushField_frame (l : List ShmField) (s : State) :
    l.foldl pushField s =
      { s with shm := (l.foldl pushField s).shm, extSeen := (l.foldl pushField s).extSeen,
               bursts := s.bursts.drop l.length } := by
  induction l generalizing s with
  | nil => rfl
  | cons f rest ih =>
    rw [List.foldl_cons, ih, pushField_frame s f]
    simp [List.drop_tail]

/-- A byte outside the field that a push stores to is as the agent's turn alone leaves it. -/
theorem get_pushField (s : State) (f : ShmField) (a : Nat) (h : a < f.addr ∨ f.addr + 4 ≤ a) :
    Memory.get (pushField s f).shm a = Memory.get s.extTurn.shm a :=
  Memory.get_writeWord_of_outside _ _ _ _ _ h

/-- What the agent's accesses make of a byte depends on that byte alone. -/
theorem get_foldl_extAccess_congr (l : List ExtAccess) {s t : State} (hp : s.params = t.params) (a : Nat)
    (h : Memory.get s.shm a = Memory.get t.shm a) :
    Memory.get (l.foldl State.extAccess s).shm a = Memory.get (l.foldl State.extAccess t).shm a := by
  induction l generalizing s t with
  | nil => exact h
  | cons x rest ih =>
    rw [List.foldl_cons, List.foldl_cons]
    cases x with
    | load f => exact ih hp h
    | store f v =>
      refine ih hp ?_
      simp only [State.extAccess, State.shmWrite_shm, hp]
      by_cases ho : a < f.addr ∨ f.addr + 4 ≤ a
      · rw [Memory.get_writeWord_of_outside _ _ _ _ _ ho, Memory.get_writeWord_of_outside _ _ _ _ _ ho]
        exact h
      · have : a = f.addr ∨ a = f.addr + 1 ∨ a = f.addr + 2 ∨ a = f.addr + 3 := by omega
        cases t.params.shmEndian <;> rcases this with rfl | rfl | rfl | rfl <;>
          simp [Memory.writeWord, Memory.get_setFour]

theorem get_extTurn_congr {s t : State} (hp : s.params = t.params) (hb : s.bursts = t.bursts) (a : Nat)
    (h : Memory.get s.shm a = Memory.get t.shm a) : Memory.get s.extTurn.shm a = Memory.get t.extTurn.shm a := by
  unfold State.extTurn
  rw [hb]
  split
  · exact h
  · next burst rest _ =>
    exact get_foldl_extAccess_congr burst (s := { s with bursts := rest }) (t := { t with bursts := rest }) hp a h

theorem get_turns_congr (n : Nat) {s t : State} (hp : s.params = t.params) (hb : s.bursts = t.bursts) (a : Nat)
    (h : Memory.get s.shm a = Memory.get t.shm a) : Memory.get (turns n s).shm a = Memory.get (turns n t).shm a := by
  induction n generalizing s t with
  | zero => exact h
  | succ n ih =>
    exact ih (by simpa using hp) (by simp [hb]) (get_extTurn_congr hp hb a h)

/-- A byte outside every field stored to is as the agent's turns alone leave it (R160, R161). -/
theorem get_foldl_pushField (l : List ShmField) (s : State) (a : Nat) (h : ∀ f ∈ l, a < f.addr ∨ f.addr + 4 ≤ a) :
    Memory.get (l.foldl pushField s).shm a = Memory.get (turns l.length s).shm a := by
  induction l generalizing s with
  | nil => rfl
  | cons f rest ih =>
    rw [List.foldl_cons, ih _ fun g hg => h g (List.mem_cons_of_mem f hg)]
    refine get_turns_congr rest.length (s := pushField s f) (t := s.extTurn) ?_ ?_ a
      (get_pushField s f a (h f (List.mem_cons_self)))
    · rw [pushField_frame, extTurn_frame]
    · rw [pushField_frame, extTurn_frame]

/-- The agent's accesses keep a field they do not store to (R92). -/
theorem shmRead_foldl_extAccess (l : List ExtAccess) (s : State) (f : ShmField) (h : ∀ a ∈ l, ∀ v, a ≠ .store f v) :
    (l.foldl State.extAccess s).shmRead f = s.shmRead f := by
  induction l generalizing s with
  | nil => rfl
  | cons a rest ih =>
    rw [List.foldl_cons, ih _ fun b hb => h b (List.mem_cons_of_mem a hb)]
    cases a with
    | load g => rfl
    | store g v =>
      have hg : f ≠ g := fun e => h (.store g v) (List.mem_cons_self) v (by rw [e])
      simp [State.extAccess, State.shmRead_shmWrite, hg]

theorem shmRead_extTurn (s : State) (f : ShmField) (h : noStoreTo f 1 s) : s.extTurn.shmRead f = s.shmRead f := by
  unfold State.extTurn
  split
  · rfl
  · next burst rest hb =>
    rw [shmRead_foldl_extAccess burst _ f (h burst (by simp [hb]))]
    rfl

theorem noStoreTo_tail {f : ShmField} {n : Nat} {s t : State} (h : noStoreTo f (n + 1) s) (hb : t.bursts = s.bursts.tail) :
    noStoreTo f n t := by
  intro burst hm
  rw [hb] at hm
  refine h burst ?_
  cases hs : s.bursts with
  | nil => rw [hs] at hm; simp at hm
  | cons b rest => rw [hs] at hm; simpa using Or.inr hm

theorem noStoreTo_one {f : ShmField} {n : Nat} {s : State} (h : noStoreTo f (n + 1) s) : noStoreTo f 1 s := by
  intro burst hm
  refine h burst ?_
  cases hs : s.bursts with
  | nil => rw [hs] at hm; simp at hm
  | cons b rest => rw [hs] at hm; simp at hm; simp [hm]

/-- A field that is not among those stored to, and that the agent does not store to, is kept. -/
theorem shmRead_foldl_pushField_of_notMem (l : List ShmField) (s : State) (f : ShmField) (hf : f ∉ l)
    (h : noStoreTo f l.length s) : (l.foldl pushField s).shmRead f = s.shmRead f := by
  induction l generalizing s with
  | nil => rfl
  | cons g rest ih =>
    rw [List.mem_cons, not_or] at hf
    rw [List.foldl_cons, ih _ hf.2 (noStoreTo_tail h (by rw [pushField_frame]))]
    unfold pushField
    simp only
    rw [State.shmRead_shmWrite, if_neg hf.1, shmRead_extTurn s f (noStoreTo_one h)]

/-- A field stored to holds the register's value afterwards, unless the agent stored to it (R160, R90). -/
theorem shmRead_foldl_pushField_of_mem (l : List ShmField) (hl : l.Nodup) (s : State) (f : ShmField) (hf : f ∈ l)
    (h : noStoreTo f l.length s) : (l.foldl pushField s).shmRead f = pushedValue s.regs f := by
  induction l generalizing s with
  | nil => exact absurd hf (by simp)
  | cons g rest ih =>
    rw [List.nodup_cons] at hl
    have hrest : noStoreTo f rest.length (pushField s g) := noStoreTo_tail h (by rw [pushField_frame])
    rw [List.foldl_cons]
    by_cases hg : f = g
    · subst hg
      rw [shmRead_foldl_pushField_of_notMem _ _ _ hl.1 hrest]
      unfold pushField
      simp only
      rw [State.shmRead_shmWrite, if_pos rfl, extTurn_regs]
    · rw [ih hl.2 _ ((List.mem_cons.mp hf).resolve_left hg) hrest]
      rw [pushField_frame]

/-- Everything the push can do (R160, R161, R166, R90). -/
theorem push_effect (s : State) : PushEffect s s.push := by
  cases hv : s.bridgeValid
  · have h : s.push = s.emit (.bridgeSkipped .push) := by simp [State.push, hv]
    rw [h]
    exact ⟨fun _ => rfl, by simp [hv], by simp [hv], by simp [hv]⟩
  · have h : s.push = (nextOrder s).foldl pushField { s with orders := s.orders.tail } := by
      rw [← pushStores_eq]
      exact if_pos hv
    have hperm := nextOrder_perm s
    have hlen : (nextOrder s).length = 8 := hperm.length_eq
    have hnd : (nextOrder s).Nodup := hperm.nodup_iff.mpr (by decide)
    rw [h]
    refine ⟨by simp [hv], fun _ f hf hn => ?_, fun _ a ha => ?_, fun _ => ?_⟩
    · exact shmRead_foldl_pushField_of_mem _ hnd _ f (hperm.mem_iff.mpr hf) (hlen ▸ hn)
    · rw [get_foldl_pushField _ _ _ fun f hf => ha f (hperm.mem_iff.mp hf), hlen]
      exact get_turns_congr 8 (s := { s with orders := s.orders.tail }) (t := s) rfl rfl a rfl
    · rw [foldl_pushField_frame, hlen]

@[simp] theorem push_regs (s : State) : s.push.regs = s.regs := by
  cases hv : s.bridgeValid
  · rw [(push_effect s).skipped hv]
  · rw [(push_effect s).frame hv]

/-! Delivering a result and pushing do not interact. -/

theorem foldl_extAccess_deliver (l : List ExtAccess) (s : State) (r : Result) :
    l.foldl State.extAccess (s.deliver r) = (l.foldl State.extAccess s).deliver r := by
  induction l generalizing s with
  | nil => rfl
  | cons a rest ih =>
    rw [List.foldl_cons, List.foldl_cons, ← ih]
    cases a <;> rfl

theorem extTurn_deliver (s : State) (r : Result) : (s.deliver r).extTurn = s.extTurn.deliver r := by
  unfold State.extTurn
  simp only [State.deliver_bursts]
  split
  · rfl
  · exact foldl_extAccess_deliver _ { s with bursts := _ } r

theorem foldl_pushField_deliver (l : List ShmField) (s : State) (r : Result) :
    l.foldl pushField (s.deliver r) = (l.foldl pushField s).deliver r := by
  induction l generalizing s with
  | nil => rfl
  | cons f rest ih =>
    have one : pushField (s.deliver r) f = (pushField s f).deliver r := by
      unfold pushField
      rw [extTurn_deliver]
      rfl
    rw [List.foldl_cons, List.foldl_cons, one, ih]

theorem push_deliver (s : State) (r : Result) : (s.deliver r).push = s.push.deliver r := by
  cases hv : s.bridgeValid
  · have h1 : s.push = s.emit (.bridgeSkipped .push) := by simp [State.push, hv]
    have h2 : (s.deliver r).push = (s.deliver r).emit (.bridgeSkipped .push) := by simp [State.push, hv]
    rw [h1, h2]
    rfl
  · have h1 : s.push = pushStores s := by simp [State.push, hv]
    have h2 : (s.deliver r).push = pushStores (s.deliver r) := by simp [State.push, hv]
    rw [h1, h2, pushStores_eq, pushStores_eq, ← foldl_pushField_deliver]
    rfl

end Sys2Proof.Machine
end

