-- ==== Sys2Proof/Laws/Deriver.lean ====
section
/-! SUPPORT. The masks of R141 bit by bit, and the derive pass (R150) pin by pin: each pin's three bits are a function of those three bits and
of whether the pin is Output; bits that belong to no pin and everything else are unchanged. -/

namespace Sys2Proof.Machine

/-! Masks. -/

theorem getLsbD_maskFold (test : Pin → Bool) (r : Fin 2) (j : Nat) (hj : j < 32) (l : List Pin) (m : Word) :
    (l.foldl (fun m p => if bankReg p = r ∧ test p then m ||| (1#32 <<< bankBit p) else m) m).getLsbD j =
      (m.getLsbD j || l.any (fun p => decide (bankReg p = r) && decide (bankBit p = j) && test p)) := by
  induction l generalizing m with
  | nil => simp
  | cons p rest ih =>
    rw [List.foldl_cons, ih, List.any_cons]
    by_cases h : bankReg p = r ∧ test p = true
    · have hb : (1#32 <<< bankBit p).getLsbD j = decide (bankBit p = j) := by
        rw [BitVec.getLsbD_shiftLeft, BitVec.getLsbD_one]
        by_cases hlt : j < bankBit p
        · simp [hj, hlt, show bankBit p ≠ j from by omega]
        · by_cases he : bankBit p = j
          · simp [hj, he]
          · simp [hj, hlt, he, show j - bankBit p ≠ 0 from by omega]
      simp [h.1, h.2, hb, Bool.or_assoc]
    · rw [if_neg h]
      by_cases hr : bankReg p = r <;> simp [hr] at h ⊢
      simp [h]

/-- A bit of a mask: there is a pin at that place for which the test holds (R141). -/
theorem getLsbD_maskOf (test : Pin → Bool) (r : Fin 2) (j : Nat) (hj : j < 32) :
    (maskOf test r).getLsbD j = pins.any (fun p => decide (bankReg p = r) && decide (bankBit p = j) && test p) := by
  unfold maskOf
  rw [getLsbD_maskFold _ _ _ hj]
  simp

/-- The bit of a mask at a pin's own place is the test (R141). -/
theorem getLsbD_maskOf_pin (test : Pin → Bool) (p : Pin) :
    (maskOf test (bankReg p)).getLsbD (bankBit p) = test p := by
  rw [getLsbD_maskOf _ _ _ (bankBit_lt p), Bool.eq_iff_iff, List.any_eq_true]
  constructor
  · rintro ⟨q, -, h⟩
    simp only [Bool.and_eq_true, decide_eq_true_eq] at h
    rw [← pin_eq_of_place h.1.1 h.1.2]
    exact h.2
  · intro h
    exact ⟨p, mem_pins p, by simp [h]⟩

/-- Every place of a bank below the no-pin bits is a pin's (R124, R28). -/
theorem pin_or_noPin (r : Fin 2) (j : Nat) (hj : j < 32) :
    (∃ p : Pin, bankReg p = r ∧ bankBit p = j) ∨ (r = 1 ∧ 22 ≤ j) := by
  by_cases h : 32 * r.val + j < 54
  · left
    refine ⟨⟨32 * r.val + j, h⟩, Fin.ext ?_, ?_⟩
    · show (32 * r.val + j) / 32 = r.val
      omega
    · show (32 * r.val + j) % 32 = j
      omega
  · right
    have := r.isLt
    exact ⟨Fin.ext (by show r.val = 1; omega), by omega⟩

/-- No pin stands at a no-pin place (R28). -/
theorem not_pin_of_noPin {r : Fin 2} {j : Nat} (h : r = 1 ∧ 22 ≤ j) (p : Pin) : ¬ (bankReg p = r ∧ bankBit p = j) := by
  rintro ⟨hr, hb⟩
  have h1 : p.val / 32 = 1 := by
    have := congrArg Fin.val (hr.trans h.1)
    exact this
  have h2 : p.val % 32 = j := hb
  have := p.isLt
  omega

/-- A mask is 0 at the no-pin bits (R141). -/
theorem getLsbD_maskOf_noPin (test : Pin → Bool) {r : Fin 2} {j : Nat} (h : r = 1 ∧ 22 ≤ j) :
    (maskOf test r).getLsbD j = false := by
  by_cases hj : j < 32
  · rw [getLsbD_maskOf _ _ _ hj, List.any_eq_false]
    intro p _
    have := not_pin_of_noPin h p
    simp only [Bool.and_eq_true, decide_eq_true_eq]
    rintro ⟨⟨hr, hb⟩, -⟩
    exact this ⟨hr, hb⟩
  · exact BitVec.getLsbD_of_ge _ _ (by omega)

/-! The derive pass. -/

/-- The three bits of a pin that the derive pass reads and writes: `(OUTSTATE, SET, CLR)`. -/
def bitsAt (f : RegFile) (p : Pin) : Bool × Bool × Bool :=
  (Bank.bit f.outstate p, Bank.bit f.gpset p, Bank.bit f.gpclr p)

/-- What the derive pass does to those three bits (R150, R151, R153). -/
def deriveBits (tieClearsClr output : Bool) : Bool × Bool × Bool → Bool × Bool × Bool
  | (o, s, c) =>
    if output then
      if s then (true, false, !tieClearsClr && c)
      else if c then (false, false, false) else (o, s, c)
    else (o, s, c)

@[simp] theorem derivePin_fsel (tie : Bool) (f : RegFile) (p : Pin) : (derivePin tie f p).fsel = f.fsel := by
  unfold derivePin
  split <;> [split <;> [rfl; (split <;> rfl)]; rfl]

theorem bitsAt_derivePin (tie : Bool) (f : RegFile) (p q : Pin) :
    bitsAt (derivePin tie f p) q = if q = p then deriveBits tie (isOutput f.fsel p) (bitsAt f p) else bitsAt f q := by
  unfold derivePin bitsAt deriveBits
  by_cases hq : q = p
  · subst hq
    cases ho : isOutput f.fsel q <;> cases hs : Bank.bit f.gpset q <;> cases hc : Bank.bit f.gpclr q <;> cases tie <;>
      simp [Bank.bit_setBit, hs, hc]
  · cases ho : isOutput f.fsel p <;> cases hs : Bank.bit f.gpset p <;> cases hc : Bank.bit f.gpclr p <;> cases tie <;>
      simp [Bank.bit_setBit, hq]

/-- The pass over some of the pins leaves everything but the three banks unchanged (R155). -/
theorem foldl_derivePin_frame (tie : Bool) (l : List Pin) (f : RegFile) :
    l.foldl (derivePin tie) f =
      { f with outstate := (l.foldl (derivePin tie) f).outstate, gpset := (l.foldl (derivePin tie) f).gpset,
               gpclr := (l.foldl (derivePin tie) f).gpclr } := by
  induction l generalizing f with
  | nil => rfl
  | cons p rest ih =>
    rw [List.foldl_cons, ih]
    unfold derivePin
    split <;> [split <;> [rfl; (split <;> rfl)]; rfl]

/-- A pin's three bits after the pass over a list of different pins (R150, R157). -/
theorem bitsAt_foldl_derivePin (tie : Bool) (l : List Pin) (hl : l.Nodup) (f : RegFile) (q : Pin) :
    bitsAt (l.foldl (derivePin tie) f) q =
      if q ∈ l then deriveBits tie (isOutput f.fsel q) (bitsAt f q) else bitsAt f q := by
  induction l generalizing f with
  | nil => simp
  | cons p rest ih =>
    rw [List.nodup_cons] at hl
    rw [List.foldl_cons, ih hl.2, derivePin_fsel, bitsAt_derivePin]
    by_cases hq : q = p
    · subst hq; simp [hl.1]
    · simp [hq]

/-- A place that is no pin's is unchanged by the pass (R28, R150). -/
theorem foldl_derivePin_place (tie : Bool) (l : List Pin) (f : RegFile) (r : Fin 2) (j : Nat)
    (h : ∀ p : Pin, ¬ (bankReg p = r ∧ bankBit p = j)) :
    (Bank.get (l.foldl (derivePin tie) f).outstate r).getLsbD j = (Bank.get f.outstate r).getLsbD j ∧
    (Bank.get (l.foldl (derivePin tie) f).gpset r).getLsbD j = (Bank.get f.gpset r).getLsbD j ∧
    (Bank.get (l.foldl (derivePin tie) f).gpclr r).getLsbD j = (Bank.get f.gpclr r).getLsbD j := by
  induction l generalizing f with
  | nil => exact ⟨rfl, rfl, rfl⟩
  | cons p rest ih =>
    have hp : ¬ (r = bankReg p ∧ j = bankBit p) := fun ⟨hr, hj⟩ => h p ⟨hr.symm, hj.symm⟩
    have one : (Bank.get (derivePin tie f p).outstate r).getLsbD j = (Bank.get f.outstate r).getLsbD j ∧
        (Bank.get (derivePin tie f p).gpset r).getLsbD j = (Bank.get f.gpset r).getLsbD j ∧
        (Bank.get (derivePin tie f p).gpclr r).getLsbD j = (Bank.get f.gpclr r).getLsbD j := by
      unfold derivePin
      split
      · split
        · refine ⟨?_, ?_, ?_⟩
          · simp [Bank.getLsbD_setBit, hp]
          · simp [Bank.getLsbD_setBit, hp]
          · cases tie <;> simp [Bank.getLsbD_setBit, hp]
        · split <;> simp [Bank.getLsbD_setBit, hp]
      · exact ⟨rfl, rfl, rfl⟩
    rw [List.foldl_cons]
    have := ih (derivePin tie f p)
    exact ⟨this.1.trans one.1, this.2.1.trans one.2.1, this.2.2.trans one.2.2⟩

/-- A pin's three bits after a derive pass (R150). -/
theorem bitsAt_deriveRegs (tie : Bool) (f : RegFile) (p : Pin) :
    bitsAt (deriveRegs tie f) p = deriveBits tie (isOutput f.fsel p) (bitsAt f p) := by
  unfold deriveRegs
  rw [bitsAt_foldl_derivePin _ _ pins_nodup, if_pos (mem_pins p)]

/-- A derive pass changes nothing but the three banks (R155). -/
theorem deriveRegs_frame (tie : Bool) (f : RegFile) :
    deriveRegs tie f =
      { f with outstate := (deriveRegs tie f).outstate, gpset := (deriveRegs tie f).gpset,
               gpclr := (deriveRegs tie f).gpclr } :=
  foldl_derivePin_frame tie pins f

/-- The no-pin bits of the three banks are unchanged by a derive pass (R28). -/
theorem deriveRegs_noPin (tie : Bool) (f : RegFile) {r : Fin 2} {j : Nat} (h : r = 1 ∧ 22 ≤ j) :
    (Bank.get (deriveRegs tie f).outstate r).getLsbD j = (Bank.get f.outstate r).getLsbD j ∧
    (Bank.get (deriveRegs tie f).gpset r).getLsbD j = (Bank.get f.gpset r).getLsbD j ∧
    (Bank.get (deriveRegs tie f).gpclr r).getLsbD j = (Bank.get f.gpclr r).getLsbD j :=
  foldl_derivePin_place tie pins f r j (not_pin_of_noPin h)

@[simp] theorem deriveRegs_fsel (tie : Bool) (f : RegFile) : (deriveRegs tie f).fsel = f.fsel := by
  rw [deriveRegs_frame]

@[simp] theorem deriveRegs_level (tie : Bool) (f : RegFile) : (deriveRegs tie f).level = f.level := by
  rw [deriveRegs_frame]

@[simp] theorem deriveRegs_wcount (tie : Bool) (f : RegFile) : (deriveRegs tie f).wcount = f.wcount := by
  rw [deriveRegs_frame]

end Sys2Proof.Machine
end

