-- ==== Sys2Proof/Laws/Dispatch.lean ====
section
/-! SUPPORT. What the dispatch can do, said once: every operation is one of thirteen shapes over the shared operations. -/

namespace Sys2Proof.Machine

/-- The outcomes each operation can have on a state, by the shared operation it is. -/
inductive Shape (s : State) : Instr → Host.Outcome State Fault Refusal → Prop where
  | readReg (i : Instr) (reg : Reg) (width : Nat) : Shape s i (.next (readReg reg width s))
  | readBad (i : Instr) (offset width : Nat) : Shape s i (.next (readBad offset width s))
  | writeReg (i : Instr) (reg : Reg) (width value : Nat) (h : ∀ r, reg ≠ .level r) :
    Shape s i (.next (writeReg reg width value s))
  | writeBad (i : Instr) (offset width value : Nat) : Shape s i (.next (writeBad offset width value s))
  | line (p : Pin) (level : Bool) : Shape s (.line p level) (execLine p level s)
  | reset : Shape s .reset (execReset s)
  | init (attach : Attach) : Shape s (.init attach) (execInit attach s)
  | snapsave : Shape s .snapsave (execSnapsave s)
  | snapload (fields : SnapFields) : Shape s (.snapload fields) (execSnapload fields s)
  | fn (p : Pin) : Shape s (.fn p) (execFn p s)
  | derive : Shape s .derive (.next s.derive)
  | push : Shape s .push (.next s.push)
  | pull : Shape s .pull (.next s.pull)

/-- Every operation is one of the shapes. -/
theorem exec_shape (i : Instr) (s : State) : Shape s i (exec i s) := by
  cases i with
  | rdBad offset width => exact .readBad _ offset width
  | rdUndef offset width => exact .readBad _ offset width
  | wrBad offset width value => exact .writeBad _ offset width value
  | wrUndef offset width value => exact .writeBad _ offset width value
  | line p level => exact .line p level
  | reset => exact .reset
  | init attach => exact .init attach
  | snapsave => exact .snapsave
  | snapload fields => exact .snapload fields
  | fn p => exact .fn p
  | derive => exact .derive
  | push => exact .push
  | pull => exact .pull
  | _ =>
    first
      | exact .readReg _ _ _
      | exact .readBad _ _ _
      | exact .writeReg _ _ _ _ (fun r h => Reg.noConfusion h)
      | exact .writeBad _ _ _ _

/-- The register an offset selects in a row table is found by exact equality, so an offset that is not listed finds none. -/
theorem tableAt_eq_none {α : Type} (rows : List (Nat × α)) (key : Nat) (h : ∀ row ∈ rows, row.1 ≠ key) :
    tableAt rows key = none := by
  induction rows with
  | nil => rfl
  | cons row rest ih =>
    rw [tableAt, if_neg (fun he => h row (by simp) he.symm)]
    exact ih (fun r hr => h r (by simp [hr]))

theorem tableAt_readRows {offset : Nat} (h : offset ∉ listedOffsets) : tableAt readRows offset = none := by
  refine tableAt_eq_none _ _ (fun row hr he => h ?_)
  have hk : row.1 ∈ readRows.map Prod.fst := List.mem_map_of_mem hr
  rw [he] at hk
  have : ∀ k ∈ readRows.map Prod.fst, k ∈ listedOffsets := by decide
  exact this _ hk

theorem tableAt_writeRows {offset : Nat} (h : offset ∉ listedOffsets) : tableAt writeRows offset = none := by
  refine tableAt_eq_none _ _ (fun row hr he => h ?_)
  have hk : row.1 ∈ writeRows.map Prod.fst := List.mem_map_of_mem hr
  rw [he] at hk
  have : ∀ k ∈ writeRows.map Prod.fst, k ∈ listedOffsets := by decide
  exact this _ hk

/-- An offset at or above the window is listed nowhere (R71, R120). -/
theorem not_listed_of_window_le {offset : Nat} (h : Config.MMIO_WINDOW ≤ offset) : offset ∉ listedOffsets := by
  have all : ∀ o ∈ listedOffsets, o < Config.MMIO_WINDOW := by decide
  exact fun hm => Nat.not_lt.mpr h (all _ hm)

/-- A bus read at or above the window (R113, R202). -/
theorem decodeRead_of_window_le {offset : Nat} (h : Config.MMIO_WINDOW ≤ offset) (width : Nat) :
    decodeRead offset width = .rdUndef offset width := by
  simp [decodeRead, tableAt_readRows (not_listed_of_window_le h), Nat.not_lt.mpr h]

/-- A bus write at or above the window (R114, R251). -/
theorem decodeWrite_of_window_le {offset : Nat} (h : Config.MMIO_WINDOW ≤ offset) (width value : Nat) :
    decodeWrite offset width value = .wrUndef offset width value := by
  simp [decodeWrite, tableAt_writeRows (not_listed_of_window_le h), Nat.not_lt.mpr h]

/-- No descriptor of the register map stands at an offset that is not listed (R72). -/
theorem registerAt_unlisted (allowed : Access → Bool) {offset : Nat} (h : offset ∉ listedOffsets) :
    registerAt allowed registerMap offset = none := by
  have all : ∀ d ∈ registerMap, d.offset ∈ listedOffsets := by decide
  have go : ∀ l : List RegDesc, (∀ d ∈ l, d ∈ registerMap) → registerAt allowed l offset = none := by
    intro l
    induction l with
    | nil => exact fun _ => rfl
    | cons d rest ih =>
      intro hl
      have hd : d.offset ≠ offset := fun he => h (he ▸ all d (hl d (by simp)))
      simp only [registerAt, hd, decide_false, Bool.false_and, Bool.false_eq_true, if_false]
      exact ih (fun x hx => hl x (by simp [hx]))
  exact go _ (fun _ hd => hd)

end Sys2Proof.Machine
end

