-- ==== Sys2Proof/Laws/Mmio.lean ====
section
/-! SUPPORT. What the four shared operations of the bus can do, said once. -/

namespace Sys2Proof.Machine

/-- Everything the readable branch of a bus read can do (R170). -/
theorem readReg_effect (reg : Reg) (width : Nat) (s : State) :
    ReadEffect s (readReg reg width s) (zext (RegFile.read s.pull.regs reg)) [] :=
  ⟨s.pull, pull_effect s, by simp [readReg, State.deliver]⟩

/-- Everything the bad-offset branch of a bus read can do (R170, R196). -/
theorem readBad_effect (offset width : Nat) (s : State) :
    ReadEffect s (readBad offset width s) 0 [.badOffsetRead offset] :=
  ⟨s.pull, pull_effect s, by simp [readBad, State.deliver, State.emit]⟩

/-- A pull changes no register but LEVEL (R163, R165). -/
theorem pull_regs (s : State) : s.pull.regs = { s.regs with level := s.pull.regs.level } := by
  have P := pull_effect s
  cases hv : s.bridgeValid
  · rw [P.skipped hv]
  · rw [P.frame hv]

/-- The writable branch of a bus write is the push from the counted, assigned and derived state, whose result is already delivered (R210). -/
theorem writeReg_eq_push (reg : Reg) (width value : Nat) (s : State) :
    writeReg reg width value s =
      State.push
        { s with regs := deriveRegs s.params.tieClearsClr
                   (RegFile.write { s.regs with wcount := s.regs.wcount + 1 } reg (trunc32 value))
                 result := .nothing } :=
  (push_deliver _ _).symm

/-- The register file the writable branch of a bus write leaves (R210, R161). -/
theorem writeReg_regs (reg : Reg) (width value : Nat) (s : State) :
    (writeReg reg width value s).regs =
      deriveRegs s.params.tieClearsClr
        (RegFile.write { s.regs with wcount := s.regs.wcount + 1 } reg (trunc32 value)) := by
  rw [writeReg_eq_push, push_regs]

/-- The bad-offset branch of a bus write where `P_POST_ON_BAD_WRITE` is 1 (R247). -/
theorem writeBad_eq_push {offset width value : Nat} {s : State} (h : s.params.postOnBadWrite = true) :
    writeBad offset width value s =
      State.push
        { s with regs := deriveRegs s.params.tieClearsClr { s.regs with wcount := s.regs.wcount + 1 }
                 diag := s.diag ++ [.badOffsetWrite offset (trunc32 value)], result := .nothing } := by
  unfold writeBad
  simp only [h, if_true]
  exact (push_deliver _ _).symm

/-- The bad-offset branch of a bus write where `P_POST_ON_BAD_WRITE` is 0 (R247). -/
theorem writeBad_eq {offset width value : Nat} {s : State} (h : s.params.postOnBadWrite = false) :
    writeBad offset width value s =
      { s with regs := { s.regs with wcount := s.regs.wcount + 1 }
               diag := s.diag ++ [.badOffsetWrite offset (trunc32 value)], result := .nothing } := by
  unfold writeBad
  simp only [h, Bool.false_eq_true, if_false]
  rfl

/-- The register file the bad-offset branch of a bus write leaves (R247, R161). -/
theorem writeBad_regs (offset width value : Nat) (s : State) :
    (writeBad offset width value s).regs =
      if s.params.postOnBadWrite then deriveRegs s.params.tieClearsClr { s.regs with wcount := s.regs.wcount + 1 }
      else { s.regs with wcount := s.regs.wcount + 1 } := by
  cases h : s.params.postOnBadWrite
  · rw [writeBad_eq h]
    rfl
  · rw [writeBad_eq_push h, push_regs]
    rfl

end Sys2Proof.Machine
end

