-- ==== Sys2Proof/Laws/PerInstr.lean ====
section
/-! SUPPORT. Facts made per instruction, one lemma per constructor of `Instr`. -/

namespace Sys2Proof.Laws.SelectorRange

/-- The selector of an operation fits its 11 bits (R112), provided the offset of a catch-all row lies inside the window. -/
def Statement (i : Instr) : Prop :=
  WellFormed i = true → ∀ words, encode i = some words → words.1 < 2 ^ 11

theorem rdFsel0 (width : Nat) : Statement (.rdFsel0 width) := by
  intro _ words h
  cases h
  exact (by decide : (0x000 : Nat) < 2 ^ 11)

theorem rdFsel1 (width : Nat) : Statement (.rdFsel1 width) := by
  intro _ words h
  cases h
  exact (by decide : (0x004 : Nat) < 2 ^ 11)

theorem rdFsel2 (width : Nat) : Statement (.rdFsel2 width) := by
  intro _ words h
  cases h
  exact (by decide : (0x008 : Nat) < 2 ^ 11)

theorem rdFsel3 (width : Nat) : Statement (.rdFsel3 width) := by
  intro _ words h
  cases h
  exact (by decide : (0x00c : Nat) < 2 ^ 11)

theorem rdFsel4 (width : Nat) : Statement (.rdFsel4 width) := by
  intro _ words h
  cases h
  exact (by decide : (0x010 : Nat) < 2 ^ 11)

theorem rdFsel5 (width : Nat) : Statement (.rdFsel5 width) := by
  intro _ words h
  cases h
  exact (by decide : (0x014 : Nat) < 2 ^ 11)

theorem rdLevel0 (width : Nat) : Statement (.rdLevel0 width) := by
  intro _ words h
  cases h
  exact (by decide : (0x034 : Nat) < 2 ^ 11)

theorem rdLevel1 (width : Nat) : Statement (.rdLevel1 width) := by
  intro _ words h
  cases h
  exact (by decide : (0x038 : Nat) < 2 ^ 11)

theorem rdEds0 (width : Nat) : Statement (.rdEds0 width) := by
  intro _ words h
  cases h
  exact (by decide : (0x040 : Nat) < 2 ^ 11)

theorem rdEds1 (width : Nat) : Statement (.rdEds1 width) := by
  intro _ words h
  cases h
  exact (by decide : (0x044 : Nat) < 2 ^ 11)

theorem rdRen0 (width : Nat) : Statement (.rdRen0 width) := by
  intro _ words h
  cases h
  exact (by decide : (0x04c : Nat) < 2 ^ 11)

theorem rdRen1 (width : Nat) : Statement (.rdRen1 width) := by
  intro _ words h
  cases h
  exact (by decide : (0x050 : Nat) < 2 ^ 11)

theorem rdFen0 (width : Nat) : Statement (.rdFen0 width) := by
  intro _ words h
  cases h
  exact (by decide : (0x058 : Nat) < 2 ^ 11)

theorem rdFen1 (width : Nat) : Statement (.rdFen1 width) := by
  intro _ words h
  cases h
  exact (by decide : (0x05c : Nat) < 2 ^ 11)

theorem rdHen0 (width : Nat) : Statement (.rdHen0 width) := by
  intro _ words h
  cases h
  exact (by decide : (0x064 : Nat) < 2 ^ 11)

theorem rdHen1 (width : Nat) : Statement (.rdHen1 width) := by
  intro _ words h
  cases h
  exact (by decide : (0x068 : Nat) < 2 ^ 11)

theorem rdLen0 (width : Nat) : Statement (.rdLen0 width) := by
  intro _ words h
  cases h
  exact (by decide : (0x070 : Nat) < 2 ^ 11)

theorem rdLen1 (width : Nat) : Statement (.rdLen1 width) := by
  intro _ words h
  cases h
  exact (by decide : (0x074 : Nat) < 2 ^ 11)

theorem rdAren0 (width : Nat) : Statement (.rdAren0 width) := by
  intro _ words h
  cases h
  exact (by decide : (0x07c : Nat) < 2 ^ 11)

theorem rdAren1 (width : Nat) : Statement (.rdAren1 width) := by
  intro _ words h
  cases h
  exact (by decide : (0x080 : Nat) < 2 ^ 11)

theorem rdAfen0 (width : Nat) : Statement (.rdAfen0 width) := by
  intro _ words h
  cases h
  exact (by decide : (0x088 : Nat) < 2 ^ 11)

theorem rdAfen1 (width : Nat) : Statement (.rdAfen1 width) := by
  intro _ words h
  cases h
  exact (by decide : (0x08c : Nat) < 2 ^ 11)

theorem rdPud (width : Nat) : Statement (.rdPud width) := by
  intro _ words h
  cases h
  exact (by decide : (0x094 : Nat) < 2 ^ 11)

theorem rdPudclk0 (width : Nat) : Statement (.rdPudclk0 width) := by
  intro _ words h
  cases h
  exact (by decide : (0x098 : Nat) < 2 ^ 11)

theorem rdPudclk1 (width : Nat) : Statement (.rdPudclk1 width) := by
  intro _ words h
  cases h
  exact (by decide : (0x09c : Nat) < 2 ^ 11)

theorem rdSet0 (width : Nat) : Statement (.rdSet0 width) := by
  intro _ words h
  cases h
  exact (by decide : (0x01c : Nat) < 2 ^ 11)

theorem rdSet1 (width : Nat) : Statement (.rdSet1 width) := by
  intro _ words h
  cases h
  exact (by decide : (0x020 : Nat) < 2 ^ 11)

theorem rdClr0 (width : Nat) : Statement (.rdClr0 width) := by
  intro _ words h
  cases h
  exact (by decide : (0x028 : Nat) < 2 ^ 11)

theorem rdClr1 (width : Nat) : Statement (.rdClr1 width) := by
  intro _ words h
  cases h
  exact (by decide : (0x02c : Nat) < 2 ^ 11)

theorem rdRsvd18 (width : Nat) : Statement (.rdRsvd18 width) := by
  intro _ words h
  cases h
  exact (by decide : (0x018 : Nat) < 2 ^ 11)

theorem rdRsvd24 (width : Nat) : Statement (.rdRsvd24 width) := by
  intro _ words h
  cases h
  exact (by decide : (0x024 : Nat) < 2 ^ 11)

theorem rdRsvd30 (width : Nat) : Statement (.rdRsvd30 width) := by
  intro _ words h
  cases h
  exact (by decide : (0x030 : Nat) < 2 ^ 11)

theorem rdRsvd3c (width : Nat) : Statement (.rdRsvd3c width) := by
  intro _ words h
  cases h
  exact (by decide : (0x03c : Nat) < 2 ^ 11)

theorem rdRsvd48 (width : Nat) : Statement (.rdRsvd48 width) := by
  intro _ words h
  cases h
  exact (by decide : (0x048 : Nat) < 2 ^ 11)

theorem rdRsvd54 (width : Nat) : Statement (.rdRsvd54 width) := by
  intro _ words h
  cases h
  exact (by decide : (0x054 : Nat) < 2 ^ 11)

theorem rdRsvd60 (width : Nat) : Statement (.rdRsvd60 width) := by
  intro _ words h
  cases h
  exact (by decide : (0x060 : Nat) < 2 ^ 11)

theorem rdRsvd6c (width : Nat) : Statement (.rdRsvd6c width) := by
  intro _ words h
  cases h
  exact (by decide : (0x06c : Nat) < 2 ^ 11)

theorem rdRsvd78 (width : Nat) : Statement (.rdRsvd78 width) := by
  intro _ words h
  cases h
  exact (by decide : (0x078 : Nat) < 2 ^ 11)

theorem rdRsvd84 (width : Nat) : Statement (.rdRsvd84 width) := by
  intro _ words h
  cases h
  exact (by decide : (0x084 : Nat) < 2 ^ 11)

theorem rdRsvd90 (width : Nat) : Statement (.rdRsvd90 width) := by
  intro _ words h
  cases h
  exact (by decide : (0x090 : Nat) < 2 ^ 11)

theorem rdRsvda0 (width : Nat) : Statement (.rdRsvda0 width) := by
  intro _ words h
  cases h
  exact (by decide : (0x0a0 : Nat) < 2 ^ 11)

theorem rdRsvdb0 (width : Nat) : Statement (.rdRsvdb0 width) := by
  intro _ words h
  cases h
  exact (by decide : (0x0b0 : Nat) < 2 ^ 11)

theorem rdUndef (offset : Nat) (width : Nat) : Statement (.rdUndef offset width) := by
  intro _ words h
  cases h

theorem rdBad (offset : Nat) (width : Nat) : Statement (.rdBad offset width) := by
  intro wf words h
  cases h
  simp [WellFormed, Config.MMIO_WINDOW] at wf
  have := of_decide_eq_true wf.1
  simp only
  omega

theorem wrFsel0 (width : Nat) (value : Nat) : Statement (.wrFsel0 width value) := by
  intro _ words h
  cases h
  exact (by decide : (0x200 : Nat) < 2 ^ 11)

theorem wrFsel1 (width : Nat) (value : Nat) : Statement (.wrFsel1 width value) := by
  intro _ words h
  cases h
  exact (by decide : (0x204 : Nat) < 2 ^ 11)

theorem wrFsel2 (width : Nat) (value : Nat) : Statement (.wrFsel2 width value) := by
  intro _ words h
  cases h
  exact (by decide : (0x208 : Nat) < 2 ^ 11)

theorem wrFsel3 (width : Nat) (value : Nat) : Statement (.wrFsel3 width value) := by
  intro _ words h
  cases h
  exact (by decide : (0x20c : Nat) < 2 ^ 11)

theorem wrFsel4 (width : Nat) (value : Nat) : Statement (.wrFsel4 width value) := by
  intro _ words h
  cases h
  exact (by decide : (0x210 : Nat) < 2 ^ 11)

theorem wrFsel5 (width : Nat) (value : Nat) : Statement (.wrFsel5 width value) := by
  intro _ words h
  cases h
  exact (by decide : (0x214 : Nat) < 2 ^ 11)

theorem wrSet0 (width : Nat) (value : Nat) : Statement (.wrSet0 width value) := by
  intro _ words h
  cases h
  exact (by decide : (0x21c : Nat) < 2 ^ 11)

theorem wrSet1 (width : Nat) (value : Nat) : Statement (.wrSet1 width value) := by
  intro _ words h
  cases h
  exact (by decide : (0x220 : Nat) < 2 ^ 11)

theorem wrClr0 (width : Nat) (value : Nat) : Statement (.wrClr0 width value) := by
  intro _ words h
  cases h
  exact (by decide : (0x228 : Nat) < 2 ^ 11)

theorem wrClr1 (width : Nat) (value : Nat) : Statement (.wrClr1 width value) := by
  intro _ words h
  cases h
  exact (by decide : (0x22c : Nat) < 2 ^ 11)

theorem wrEds0 (width : Nat) (value : Nat) : Statement (.wrEds0 width value) := by
  intro _ words h
  cases h
  exact (by decide : (0x240 : Nat) < 2 ^ 11)

theorem wrEds1 (width : Nat) (value : Nat) : Statement (.wrEds1 width value) := by
  intro _ words h
  cases h
  exact (by decide : (0x244 : Nat) < 2 ^ 11)

theorem wrRen0 (width : Nat) (value : Nat) : Statement (.wrRen0 width value) := by
  intro _ words h
  cases h
  exact (by decide : (0x24c : Nat) < 2 ^ 11)

theorem wrRen1 (width : Nat) (value : Nat) : Statement (.wrRen1 width value) := by
  intro _ words h
  cases h
  exact (by decide : (0x250 : Nat) < 2 ^ 11)

theorem wrFen0 (width : Nat) (value : Nat) : Statement (.wrFen0 width value) := by
  intro _ words h
  cases h
  exact (by decide : (0x258 : Nat) < 2 ^ 11)

theorem wrFen1 (width : Nat) (value : Nat) : Statement (.wrFen1 width value) := by
  intro _ words h
  cases h
  exact (by decide : (0x25c : Nat) < 2 ^ 11)

theorem wrHen0 (width : Nat) (value : Nat) : Statement (.wrHen0 width value) := by
  intro _ words h
  cases h
  exact (by decide : (0x264 : Nat) < 2 ^ 11)

theorem wrHen1 (width : Nat) (value : Nat) : Statement (.wrHen1 width value) := by
  intro _ words h
  cases h
  exact (by decide : (0x268 : Nat) < 2 ^ 11)

theorem wrLen0 (width : Nat) (value : Nat) : Statement (.wrLen0 width value) := by
  intro _ words h
  cases h
  exact (by decide : (0x270 : Nat) < 2 ^ 11)

theorem wrLen1 (width : Nat) (value : Nat) : Statement (.wrLen1 width value) := by
  intro _ words h
  cases h
  exact (by decide : (0x274 : Nat) < 2 ^ 11)

theorem wrAren0 (width : Nat) (value : Nat) : Statement (.wrAren0 width value) := by
  intro _ words h
  cases h
  exact (by decide : (0x27c : Nat) < 2 ^ 11)

theorem wrAren1 (width : Nat) (value : Nat) : Statement (.wrAren1 width value) := by
  intro _ words h
  cases h
  exact (by decide : (0x280 : Nat) < 2 ^ 11)

theorem wrAfen0 (width : Nat) (value : Nat) : Statement (.wrAfen0 width value) := by
  intro _ words h
  cases h
  exact (by decide : (0x288 : Nat) < 2 ^ 11)

theorem wrAfen1 (width : Nat) (value : Nat) : Statement (.wrAfen1 width value) := by
  intro _ words h
  cases h
  exact (by decide : (0x28c : Nat) < 2 ^ 11)

theorem wrPud (width : Nat) (value : Nat) : Statement (.wrPud width value) := by
  intro _ words h
  cases h
  exact (by decide : (0x294 : Nat) < 2 ^ 11)

theorem wrPudclk0 (width : Nat) (value : Nat) : Statement (.wrPudclk0 width value) := by
  intro _ words h
  cases h
  exact (by decide : (0x298 : Nat) < 2 ^ 11)

theorem wrPudclk1 (width : Nat) (value : Nat) : Statement (.wrPudclk1 width value) := by
  intro _ words h
  cases h
  exact (by decide : (0x29c : Nat) < 2 ^ 11)

theorem wrLevel0 (width : Nat) (value : Nat) : Statement (.wrLevel0 width value) := by
  intro _ words h
  cases h
  exact (by decide : (0x234 : Nat) < 2 ^ 11)

theorem wrLevel1 (width : Nat) (value : Nat) : Statement (.wrLevel1 width value) := by
  intro _ words h
  cases h
  exact (by decide : (0x238 : Nat) < 2 ^ 11)

theorem wrRsvd18 (width : Nat) (value : Nat) : Statement (.wrRsvd18 width value) := by
  intro _ words h
  cases h
  exact (by decide : (0x218 : Nat) < 2 ^ 11)

theorem wrRsvd24 (width : Nat) (value : Nat) : Statement (.wrRsvd24 width value) := by
  intro _ words h
  cases h
  exact (by decide : (0x224 : Nat) < 2 ^ 11)

theorem wrRsvd30 (width : Nat) (value : Nat) : Statement (.wrRsvd30 width value) := by
  intro _ words h
  cases h
  exact (by decide : (0x230 : Nat) < 2 ^ 11)

theorem wrRsvd3c (width : Nat) (value : Nat) : Statement (.wrRsvd3c width value) := by
  intro _ words h
  cases h
  exact (by decide : (0x23c : Nat) < 2 ^ 11)

theorem wrRsvd48 (width : Nat) (value : Nat) : Statement (.wrRsvd48 width value) := by
  intro _ words h
  cases h
  exact (by decide : (0x248 : Nat) < 2 ^ 11)

theorem wrRsvd54 (width : Nat) (value : Nat) : Statement (.wrRsvd54 width value) := by
  intro _ words h
  cases h
  exact (by decide : (0x254 : Nat) < 2 ^ 11)

theorem wrRsvd60 (width : Nat) (value : Nat) : Statement (.wrRsvd60 width value) := by
  intro _ words h
  cases h
  exact (by decide : (0x260 : Nat) < 2 ^ 11)

theorem wrRsvd6c (width : Nat) (value : Nat) : Statement (.wrRsvd6c width value) := by
  intro _ words h
  cases h
  exact (by decide : (0x26c : Nat) < 2 ^ 11)

theorem wrRsvd78 (width : Nat) (value : Nat) : Statement (.wrRsvd78 width value) := by
  intro _ words h
  cases h
  exact (by decide : (0x278 : Nat) < 2 ^ 11)

theorem wrRsvd84 (width : Nat) (value : Nat) : Statement (.wrRsvd84 width value) := by
  intro _ words h
  cases h
  exact (by decide : (0x284 : Nat) < 2 ^ 11)

theorem wrRsvd90 (width : Nat) (value : Nat) : Statement (.wrRsvd90 width value) := by
  intro _ words h
  cases h
  exact (by decide : (0x290 : Nat) < 2 ^ 11)

theorem wrRsvda0 (width : Nat) (value : Nat) : Statement (.wrRsvda0 width value) := by
  intro _ words h
  cases h
  exact (by decide : (0x2a0 : Nat) < 2 ^ 11)

theorem wrRsvdb0 (width : Nat) (value : Nat) : Statement (.wrRsvdb0 width value) := by
  intro _ words h
  cases h
  exact (by decide : (0x2b0 : Nat) < 2 ^ 11)

theorem wrUndef (offset : Nat) (width : Nat) (value : Nat) : Statement (.wrUndef offset width value) := by
  intro _ words h
  cases h

theorem wrBad (offset : Nat) (width : Nat) (value : Nat) : Statement (.wrBad offset width value) := by
  intro wf words h
  cases h
  simp [WellFormed, Config.MMIO_WINDOW] at wf
  have := of_decide_eq_true wf.1
  simp only
  omega

theorem line (pin : Pin) (level : Bool) : Statement (.line pin level) := by
  intro _ words h
  cases h
  have := pin.isLt
  cases level <;> simp [lineSelector] <;> omega

theorem reset : Statement (.reset) := by
  intro _ words h
  cases h
  exact (by decide : (0x600 : Nat) < 2 ^ 11)

theorem init (attach : Attach) : Statement (.init attach) := by
  intro _ words h
  cases h
  exact (by decide : (0x601 : Nat) < 2 ^ 11)

theorem snapsave : Statement (.snapsave) := by
  intro _ words h
  cases h
  exact (by decide : (0x602 : Nat) < 2 ^ 11)

theorem snapload (fields : SnapFields) : Statement (.snapload fields) := by
  intro _ words h
  cases h
  exact (by decide : (0x603 : Nat) < 2 ^ 11)

theorem fn (p : Pin) : Statement (.fn p) := by
  intro _ words h
  cases h

theorem derive : Statement (.derive) := by
  intro _ words h
  cases h

theorem push : Statement (.push) := by
  intro _ words h
  cases h

theorem pull : Statement (.pull) := by
  intro _ words h
  cases h

end Sys2Proof.Laws.SelectorRange
end

