-- ==== Sys2Proof/Tests/Slice0.lean ====
section
/-! SUPPORT. The model's own tests: the well-formedness checks, the decoding of words written out from the spec's encodings, steps with the
values of 95_test_vectors.md, and for each statement with hypotheses a state and operands that meet them. -/

namespace Sys2Proof.Tests

open Sys2Proof Sys2Proof.Machine

/-! Helpers. -/

/-- The state a step leaves; the state after reset where it leaves none. -/
def after (o : Host.Outcome State Fault Refusal) : State :=
  match o with
  | .next s => s
  | .fault _ => State.reset
  | .refused _ => State.reset

/-- The state after reset with one event to come and a register file. -/
def at_ (e : Event) (f : RegFile) : State := { State.reset with pending := [.op e], regs := f }

/-- A register file with the six function-select registers given and the rest 0. -/
def sel (f0 f1 f5 : Word) : RegFile := { RegFile.zero with fsel := ⟨f0, f1, 0, 0, 0, f5⟩ }

/-- The state after reset with an invalid bridge. -/
def broken : State := { State.reset with bridgeValid := false }

/-! Well-formedness: an ill-formed term for each check. -/

theorem test_wf_rdBad_of_a_listed_offset : WellFormed (.rdBad 0x18 4) = false := by decide
theorem test_wf_rdBad_beyond_the_window : WellFormed (.rdBad 0x100 4) = false ∧ WellFormed (.rdBad 0xff 4) = true := by decide
theorem test_wf_wrBad_of_a_listed_offset : WellFormed (.wrBad 0x00 4 1) = false := by decide
theorem test_wf_wrBad_beyond_the_window : WellFormed (.wrBad 0x100 4 1) = false ∧ WellFormed (.wrBad 0xff 4 1) = true := by decide
theorem test_wf_rdUndef_inside_the_window : WellFormed (.rdUndef 0xff 4) = false ∧ WellFormed (.rdUndef 0x100 4) = true := by decide
theorem test_wf_wrUndef_inside_the_window : WellFormed (.wrUndef 0xff 4 1) = false ∧ WellFormed (.wrUndef 0x100 4 1) = true := by decide

/-! Decoding: the selector of every row, written out from R113 to R116 and the rules of the rows. -/

set_option maxRecDepth 20000 in
/-- Format BR (R113), the readable, write-only and reserved offsets; operand words 0. -/
theorem test_decode_bus_reads :
    [0b00000000000, 0b00000000100, 0b00000001000, 0b00000001100, 0b00000010000, 0b00000010100,
   0b00000110100, 0b00000111000, 0b00001000000, 0b00001000100, 0b00001001100, 0b00001010000,
   0b00001011000, 0b00001011100, 0b00001100100, 0b00001101000, 0b00001110000, 0b00001110100,
   0b00001111100, 0b00010000000, 0b00010001000, 0b00010001100, 0b00010010100, 0b00010011000,
   0b00010011100, 0b00000011100, 0b00000100000, 0b00000101000, 0b00000101100, 0b00000011000,
   0b00000100100, 0b00000110000, 0b00000111100, 0b00001001000, 0b00001010100, 0b00001100000,
   0b00001101100, 0b00001111000, 0b00010000100, 0b00010010000, 0b00010100000, 0b00010110000].map (decodeTableWord 16) =
    [some (.rdFsel0 0), some (.rdFsel1 0), some (.rdFsel2 0), some (.rdFsel3 0), some (.rdFsel4 0),
   some (.rdFsel5 0), some (.rdLevel0 0), some (.rdLevel1 0), some (.rdEds0 0), some (.rdEds1 0),
   some (.rdRen0 0), some (.rdRen1 0), some (.rdFen0 0), some (.rdFen1 0), some (.rdHen0 0),
   some (.rdHen1 0), some (.rdLen0 0), some (.rdLen1 0), some (.rdAren0 0), some (.rdAren1 0),
   some (.rdAfen0 0), some (.rdAfen1 0), some (.rdPud 0), some (.rdPudclk0 0), some (.rdPudclk1 0),
   some (.rdSet0 0), some (.rdSet1 0), some (.rdClr0 0), some (.rdClr1 0), some (.rdRsvd18 0),
   some (.rdRsvd24 0), some (.rdRsvd30 0), some (.rdRsvd3c 0), some (.rdRsvd48 0), some (.rdRsvd54 0),
   some (.rdRsvd60 0), some (.rdRsvd6c 0), some (.rdRsvd78 0), some (.rdRsvd84 0), some (.rdRsvd90 0),
   some (.rdRsvda0 0), some (.rdRsvdb0 0)] := by decide

set_option maxRecDepth 20000 in
/-- Format BW (R114), the writable, read-only and reserved offsets; operand words 0. -/
theorem test_decode_bus_writes :
    [0b01000000000, 0b01000000100, 0b01000001000, 0b01000001100, 0b01000010000, 0b01000010100,
   0b01000011100, 0b01000100000, 0b01000101000, 0b01000101100, 0b01001000000, 0b01001000100,
   0b01001001100, 0b01001010000, 0b01001011000, 0b01001011100, 0b01001100100, 0b01001101000,
   0b01001110000, 0b01001110100, 0b01001111100, 0b01010000000, 0b01010001000, 0b01010001100,
   0b01010010100, 0b01010011000, 0b01010011100, 0b01000110100, 0b01000111000, 0b01000011000,
   0b01000100100, 0b01000110000, 0b01000111100, 0b01001001000, 0b01001010100, 0b01001100000,
   0b01001101100, 0b01001111000, 0b01010000100, 0b01010010000, 0b01010100000, 0b01010110000].map (decodeTableWord 16) =
    [some (.wrFsel0 0 0), some (.wrFsel1 0 0), some (.wrFsel2 0 0), some (.wrFsel3 0 0), some (.wrFsel4 0 0),
   some (.wrFsel5 0 0), some (.wrSet0 0 0), some (.wrSet1 0 0), some (.wrClr0 0 0), some (.wrClr1 0 0),
   some (.wrEds0 0 0), some (.wrEds1 0 0), some (.wrRen0 0 0), some (.wrRen1 0 0), some (.wrFen0 0 0),
   some (.wrFen1 0 0), some (.wrHen0 0 0), some (.wrHen1 0 0), some (.wrLen0 0 0), some (.wrLen1 0 0),
   some (.wrAren0 0 0), some (.wrAren1 0 0), some (.wrAfen0 0 0), some (.wrAfen1 0 0), some (.wrPud 0 0),
   some (.wrPudclk0 0 0), some (.wrPudclk1 0 0), some (.wrLevel0 0 0), some (.wrLevel1 0 0), some (.wrRsvd18 0 0),
   some (.wrRsvd24 0 0), some (.wrRsvd30 0 0), some (.wrRsvd3c 0 0), some (.wrRsvd48 0 0), some (.wrRsvd54 0 0),
   some (.wrRsvd60 0 0), some (.wrRsvd6c 0 0), some (.wrRsvd78 0 0), some (.wrRsvd84 0 0), some (.wrRsvd90 0 0),
   some (.wrRsvda0 0 0), some (.wrRsvdb0 0 0)] := by decide

/-- The catch-all offsets inside the window (R196, R247): 0x35 is inside LEVEL[0], 0xfc is unlisted. -/
theorem test_decode_catch_all :
    [0b00000110101, 0b00011111100, 0b01000011101, 0b01011111100].map (decodeTableWord 16) =
    [some (.rdBad 0x35 0), some (.rdBad 0xfc 0), some (.wrBad 0x1d 0 0), some (.wrBad 0xfc 0 0)] := by decide

/-- An offset at or beyond the window has no selector and is a bad offset (R113, R114, R202, R251). -/
theorem test_decode_beyond_the_window :
    decode (.busRead 0x100 4) = .ok (.rdUndef 0x100 4) ∧ decode (.busWrite 0x100 4 1) = .ok (.wrUndef 0x100 4 1) := ⟨rfl, rfl⟩

/-- Format LN (R115), with the selectors of vectors L-1 to L-4. -/
theorem test_decode_line :
    [0b10001001010, 0b10000001010, 0b10001110101, 0b10001100000].map (decodeTableWord 16) =
    [some (.line 10 true), some (.line 10 false), some (.line 53 true), some (.line 32 true)] := by decide

/-- A line of index 54 or 63 is refused (R262), and so is a selector of no format. -/
theorem test_decode_refusals :
    [0b10000110110, 0b10001111111, 0b10010000000, 0b11000000100, 0b11100000000].map (decodeTableWord 16) =
    [none, none, none, none, none] := by decide

set_option maxRecDepth 20000 in
/-- Format CT (R116): RESET, INIT, SNAPSAVE, SNAPLOAD with operand words of zeros. -/
theorem test_decode_control :
    [0b11000000000, 0b11000000001, 0b11000000010, 0b11000000011].map (decodeTableWord 16) =
    [some .reset, some (.init .found), some .snapsave,
     some (.snapload
       { fsel := .zero, gpset := .zero, gpclr := .zero, level := .zero, eds := .zero, ren := .zero, fen := .zero, hen := .zero
         len := .zero, aren := .zero, afen := .zero, pud := 0, pudclk := .zero })] := by decide

/-- The operand words stand at 64 bits each above the two bytes of the selector (notes/assumptions/9.md). -/
theorem test_decode_operands : decodeTableWord 144 (0x21c + 4 * 2 ^ 16 + 0x20 * 2 ^ 80) = some (.wrSet0 4 0x20) := by decide

/-- The internal sub-operations have no selector (R110). -/
theorem test_no_selector : encode (.fn 0) = none ∧ encode .derive = none ∧ encode .push = none ∧ encode .pull = none := by decide

/-! Steps, with the values of 95_test_vectors.md. -/

set_option maxRecDepth 100000 in
/-- Scenario A, step 1: `WR 0x00, 1`. -/
theorem test_scenario_a_select :
    let t := after (step (at_ (.busWrite 0x00 4 1) RegFile.zero))
    t.regs.fsel.f0 = 1 ∧ t.shmRead (.fsel 0) = 1 ∧ t.regs.wcount = 1 := by decide

set_option maxRecDepth 100000 in
/-- Scenario A, step 2: `WR 0x1c, 1` with pin 0 Output. -/
theorem test_scenario_a_set :
    let t := after (step (at_ (.busWrite 0x1c 4 1) (sel 1 0 0)))
    t.regs.gpset.r0 = 0 ∧ t.regs.outstate.r0 = 1 ∧ t.shmRead (.outstate 0) = 1 := by decide

set_option maxRecDepth 100000 in
/-- Scenario B: a bad-offset read pulls the level of an Input pin. -/
theorem test_scenario_b :
    let t := after (step { at_ (.busRead 0x18 4) RegFile.zero with shm := [(24, 1)] })
    t.regs.level.r0 = 1 ∧ t.result = .busData 0 ∧ t.diag = [.badOffsetRead 0x18] := by decide

set_option maxRecDepth 100000 in
/-- Scenario C: `WR 0x1c, 0x20` with pin 5 Input. -/
theorem test_scenario_c :
    let t := after (step (at_ (.busWrite 0x1c 4 0x20) RegFile.zero))
    t.regs.gpset.r0 = 0x20 ∧ t.regs.outstate.r0 = 0 ∧ t.shmRead (.outstate 0) = 0 := by decide

set_option maxRecDepth 100000 in
/-- Scenario D: `WR 0x18, 0x12345678` changes no register and leaves one record. -/
theorem test_scenario_d :
    let t := after (step (at_ (.busWrite 0x18 4 0x12345678) RegFile.zero))
    t.regs = { RegFile.zero with wcount := 1 } ∧ t.diag = [.badOffsetWrite 0x18 0x12345678] := by decide

set_option maxRecDepth 100000 in
/-- Scenario E: `LINE 10, 1` with pin 10 Output. -/
theorem test_scenario_e :
    (after (step (at_ (.line 10 1) (sel 0 1 0)))).regs.level.r0 = 0 := by decide

set_option maxRecDepth 100000 in
/-- Vector F-2: `FSEL[2] = 0x12345`, pin 23 is Output. -/
theorem test_vector_f2 :
    let s := { State.reset with regs := { RegFile.zero with fsel := ⟨0, 0, 0x12345, 0, 0, 0⟩ } }
    (after (exec (.fn 23) s)).result = .code 1 ∧ (after (exec (.fn 20) s)).result = .code 5 ∧ (after (exec (.fn 25) s)).result = .code 2 := by decide

set_option maxRecDepth 100000 in
/-- Vector F-4: `FSEL[5] = 0xFFFFF000`, pin 53 is Input. -/
theorem test_vector_f4 :
    (after (exec (.fn 53) { State.reset with regs := sel 0 0 0xfffff000 })).result = .code 0 := by decide

set_option maxRecDepth 100000 in
/-- Vector F-7: pins 0, 9, 33 and 53 Output. -/
theorem test_vector_f7 :
    let f : FselRegs := ⟨0x08000001, 0, 0, 0x200, 0, 0x200⟩
    outMask f 0 = 0x201 ∧ outMask f 1 = 0x200002 ∧ inMask f 0 = 0xfffffdfe ∧ inMask f 1 = 0x1ffffd := by decide

set_option maxRecDepth 100000 in
/-- Vector D-4: a tie with `P_TIE_CLEARS_CLR = 1`. -/
theorem test_vector_d4 :
    let t := after (exec .derive { State.reset with regs := { sel 1 0 0 with gpset := ⟨1, 0⟩, gpclr := ⟨1, 0⟩ } })
    t.regs.outstate.r0 = 1 ∧ t.regs.gpset.r0 = 0 ∧ t.regs.gpclr.r0 = 0 := by decide

set_option maxRecDepth 100000 in
/-- Vector D-5: a tie with `P_TIE_CLEARS_CLR = 0`. -/
theorem test_vector_d5 :
    let t := after (exec .derive { State.reset with
      params := { Config.defaultParams with tieClearsClr := false }
      regs := { sel 1 0 0 with gpset := ⟨1, 0⟩, gpclr := ⟨1, 0⟩ } })
    t.regs.outstate.r0 = 1 ∧ t.regs.gpset.r0 = 0 ∧ t.regs.gpclr.r0 = 1 := by decide

set_option maxRecDepth 100000 in
/-- Vector D-9: pins 0 and 1 are independent. -/
theorem test_vector_d9 :
    let t := after (exec .derive { State.reset with
      regs := { sel 9 0 0 with gpset := ⟨1, 0⟩, gpclr := ⟨2, 0⟩, outstate := ⟨2, 0⟩ } })
    t.regs.outstate.r0 = 1 ∧ t.regs.gpset.r0 = 0 ∧ t.regs.gpclr.r0 = 0 := by decide

set_option maxRecDepth 100000 in
/-- Vector B-1: a push overwrites eight fields and leaves the levels. -/
theorem test_vector_b1 :
    let t := after (exec .push { State.reset with
      shm := (List.range 40).map (fun a => (a, 0xaa)), regs := { sel 1 0 0 with outstate := ⟨1, 0⟩, level := ⟨0x30, 0⟩ } })
    t.shmRead (.fsel 0) = 1 ∧ t.shmRead (.fsel 5) = 0 ∧ t.shmRead (.outstate 0) = 1 ∧ t.shmRead (.level 0) = 0xaaaaaaaa := by decide

set_option maxRecDepth 100000 in
/-- R91: the agent stores after the first load of a pull, so the pin loaded first sees the old word and the other the new one. -/
theorem test_pull_moments :
    let s := { State.reset with bursts := [[], [.store (.level 0) 3]] }
    (after (exec .pull s)).regs.level.r0 = 2 ∧ (after (exec .pull { s with pullOrders := [[1]] })).regs.level.r0 = 1 := by decide

set_option maxRecDepth 100000 in
/-- Vector B-2: a pull never writes the bits of no pin. -/
theorem test_vector_b2 :
    (after (exec .pull { State.reset with shm := (List.range 8).map (fun k => (24 + k, 0xff)) })).regs.level = ⟨0xffffffff, 0x3fffff⟩ := by decide

set_option maxRecDepth 100000 in
/-- Vector B-3: an Output pin keeps its level bit. -/
theorem test_vector_b3 :
    (after (exec .pull { State.reset with regs := { sel 0 1 0 with level := ⟨0x401, 0⟩ } })).regs.level.r0 = 0x400 := by decide

set_option maxRecDepth 100000 in
/-- Vector B-7: with an invalid bridge a bad-offset read leaves two records. -/
theorem test_vector_b7 :
    (after (step { broken with pending := [.op (.busRead 0x18 4)] })).diag = [.bridgeSkipped .pull, .badOffsetRead 0x18] := by decide

set_option maxRecDepth 100000 in
/-- Vector R-8: a read of width 1 returns the whole register. -/
theorem test_vector_r8 :
    (after (step (at_ (.busRead 0x94 1) { RegFile.zero with pud := 0x12345678 }))).result = .busData 0x12345678 := by decide

set_option maxRecDepth 100000 in
/-- Vector R-9: a read of width 8 returns the register zero-extended. -/
theorem test_vector_r9 :
    (after (step (at_ (.busRead 0x9c 8) { RegFile.zero with pudclk := ⟨0, 0x80000001⟩ }))).result = .busData 0x80000001 := by decide

set_option maxRecDepth 100000 in
/-- Vector R-3: a stuck bit cannot be read back. -/
theorem test_vector_r3 :
    let t := after (step (at_ (.busRead 0x1c 4) { RegFile.zero with gpset := ⟨0x20, 0⟩ }))
    t.result = .busData 0 ∧ t.regs.gpset.r0 = 0x20 ∧ t.diag = [.badOffsetRead 0x1c] := by decide

set_option maxRecDepth 100000 in
/-- Vector W-4: a write replaces the register, it does not OR into it. -/
theorem test_vector_w4 :
    (after (step (at_ (.busWrite 0x1c 4 0x40) { RegFile.zero with gpset := ⟨0x20, 0⟩ }))).regs.gpset.r0 = 0x40 := by decide

set_option maxRecDepth 100000 in
/-- Vector W-5: a function-select write applies a stuck bit. -/
theorem test_vector_w5 :
    let t := after (step (at_ (.busWrite 0x00 4 0x8000) { RegFile.zero with gpset := ⟨0x20, 0⟩ }))
    t.regs.gpset.r0 = 0 ∧ t.regs.outstate.r0 = 0x20 ∧ t.shmRead (.outstate 0) = 0x20 := by decide

set_option maxRecDepth 100000 in
/-- Vector W-7: no write of 1 clears a bit of EDS. -/
theorem test_vector_w7 :
    (after (step (at_ (.busWrite 0x40 4 0xf) { RegFile.zero with eds := ⟨0xffffffff, 0⟩ }))).regs.eds.r0 = 0xf := by decide

set_option maxRecDepth 100000 in
/-- Vector W-9: the value of a write of width 8 is cut to 32 bits. -/
theorem test_vector_w9 :
    (after (step (at_ (.busWrite 0x94 8 0x100000002) RegFile.zero))).regs.pud = 2 := by decide

set_option maxRecDepth 100000 in
/-- Vector W-12: `P_POST_ON_BAD_WRITE = 0` leaves the record alone. -/
theorem test_vector_w12 :
    let s := { at_ (.busWrite 0x18 4 0) { sel 1 0 0 with outstate := ⟨1, 0⟩ } with shm := [(32, 0xff)] }
    (after (step s)).shmRead (.outstate 0) = 1 ∧
    (after (step { s with params := { Config.defaultParams with postOnBadWrite := false } })).shmRead (.outstate 0) = 0xff := by decide

set_option maxRecDepth 100000 in
/-- Vector W-13: a write beyond the window is a bad-offset write. -/
theorem test_vector_w13 :
    let t := after (step (at_ (.busWrite 0x100 4 1) RegFile.zero))
    t.diag = [.badOffsetWrite 0x100 1] ∧ t.regs.wcount = 1 := by decide

set_option maxRecDepth 100000 in
/-- Vector L-4: `LINE 32, 7` sets the bit. -/
theorem test_vector_l4 :
    (after (step (at_ (.line 32 7) RegFile.zero))).regs.level = ⟨0, 1⟩ := by decide

set_option maxRecDepth 100000 in
/-- Program P4, steps 2 and 5: pin 53 in register 1. -/
theorem test_program_p4 :
    let t := after (step (at_ (.busWrite 0x20 4 0xffffffff) (sel 0 0 0x200)))
    t.regs.outstate.r1 = 0x200000 ∧ t.regs.gpset.r1 = 0xffdfffff ∧
    (after (step { at_ (.busRead 0x38 4) (sel 0 0 0x200) with shm := (List.range 4).map (fun k => (28 + k, 0xff)) })).result = .busData 0x1fffff := by decide

set_option maxRecDepth 100000 in
/-- Program P5, step 5: a reset leaves the shared record. -/
theorem test_program_p5 :
    let t := after (step { at_ .reset { sel 1 0 0 with outstate := ⟨1, 0⟩, wcount := 3 } with shm := [(0, 1), (32, 1)] })
    t.regs = RegFile.zero ∧ t.shmRead (.fsel 0) = 1 ∧ t.shmRead (.outstate 0) = 1 := by decide

set_option maxRecDepth 100000 in
/-- R311's worked example: a loaded SET bit waits for the next bus write. -/
theorem test_snapload :
    let t := after (step (at_ (.snapLoad (1 :: 0 :: 0 :: 0 :: 0 :: 0 :: 1 :: List.replicate 22 0)) RegFile.zero))
    t.regs.fsel.f0 = 1 ∧ t.regs.gpset.r0 = 1 ∧ t.regs.outstate.r0 = 0 := by decide

set_option maxRecDepth 100000 in
/-- R310's worked example: SNAPSAVE after scenario A. -/
theorem test_snapsave :
    (after (step (at_ .snapSave { sel 1 0 0 with outstate := ⟨1, 0⟩ }))).result =
      .snapshot { fsel := ⟨1, 0, 0, 0, 0, 0⟩, gpset := .zero, gpclr := .zero, level := .zero, eds := .zero, ren := .zero, fen := .zero
                  hen := .zero, len := .zero, aren := .zero, afen := .zero, pud := 0, pudclk := .zero } := by decide

/-- R301's worked example: INIT with a failed attach leaves one record and an invalid bridge; a second INIT is refused. -/
theorem test_init :
    (after (exec (.init .failed) { State.reset with inited := false })).diag = [.attachFailed] ∧
    (after (exec (.init .failed) { State.reset with inited := false })).bridgeValid = false ∧
    exec (.init .found) State.reset = .refused .secondInit := ⟨rfl, rfl, rfl⟩

/-- An INIT presented as bits runs (notes/assumptions/7.md). -/
theorem test_init_presented : (after (step (State.reset.withFetchWord 16 0b11000000001))).draws = 1 := rfl

/-! For each statement that has hypotheses: a concrete state and operands that meet them, at the boundary of each clause. -/

theorem witness_DecodeOfEncode :
    WellFormed (.wrBad 0xff 8 7) = true ∧ encode (.wrBad 0xff 8 7) = some (0x2ff, [8, 7]) ∧
    WellFormed (.line 53 true) = true ∧ encode (.line 53 true) = some (0x475, []) ∧
    WellFormed (.init .failed) = true ∧ encode (.init .failed) = some (0x601, [2]) := by decide

theorem witness_EveryOperationHasItsEvent :
    WellFormed (.rdUndef 0x100 1) = true ∧ Selectable (.rdUndef 0x100 1) = true ∧
    WellFormed (.rdBad 0xff 1) = true ∧ Selectable (.rdBad 0xff 1) = true := by decide

theorem witness_DecodedOperationsAreWellFormed :
    decode (.busRead 0xff 4) = .ok (.rdBad 0xff 4) ∧ decode (.busRead 0x100 4) = .ok (.rdUndef 0x100 4) ∧
    decode (.line 53 0) = .ok (.line 53 false) := ⟨rfl, rfl, rfl⟩

theorem witness_BusDecodeIsByExactOffset :
    decode (.busRead 0xb0 4) = decode (.busRead 0xb0 4) ∧ decode (.busWrite 0x9c 4 1) = decode (.busWrite 0x9c 4 1) := ⟨rfl, rfl⟩

theorem witness_LineEventsAreNormalisedOrRefused :
    let s := { State.reset with pending := [.op (.line 54 1)] }
    s.pending = .op (.line 54 1) :: [] ∧ 54 ≤ 54 ∧ decode (.line 53 (-1)) = .ok (.line 53 true) := ⟨rfl, Nat.le_refl _, rfl⟩

/-- The first selector of each kind that has no format, and both ends of the range with bit 8 set. -/
theorem witness_SelectorsOfNoFormatAreRefused :
    (0x480 / 512 = 2 ∧ 128 ≤ 0x480 % 512) ∧ (0x604 / 512 = 3 ∧ 4 ≤ 0x604 % 512) ∧ 2048 ≤ 0x800 ∧
    (0x100 ≤ 0x100 ∧ 0x100 < 0x200) ∧ 0x100 ≤ 0x1ff ∧ 0x1ff < 0x200 := by decide

theorem witness_StepRunsTheDecodedOperation :
    let s := { State.reset with pending := [.op .reset] }
    s.pending = .op .reset :: [] ∧ decode .reset = .ok .reset ∧ decodeTableWord 16 0x600 = some .reset := ⟨rfl, rfl, rfl⟩

theorem witness_IdleAndExternalSteps :
    State.reset.pending = [] ∧
    ({ State.reset with pending := [.ext (.store (.level 1) 5)] } : State).pending = .ext (.store (.level 1) 5) :: [] ∧
    (27 < ShmField.addr (.level 1) ∧ ShmField.addr (.level 1) + 4 ≤ 32) ∧
    ({ State.reset with pending := [.ext (.load (.fsel 5))] } : State).pending = .ext (.load (.fsel 5)) :: [] := by decide

theorem witness_SharedFieldsAreFourBytesInHostOrder :
    3 < 4 ∧ 31 < 4 * ShmField.index (.outstate 0) ∧ 4 * ShmField.index (.outstate 0) + 4 ≤ 36 := by decide

/-- Two states that agree on pin 9's three bits and on nothing else of FSEL[0]. -/
theorem witness_FunctionDecodeReadsThreeBits :
    ∀ j, j < 3 → (FselRegs.get (sel 0x38000000 0 0).fsel (fselReg 9)).getLsbD (fselShift 9 + j) =
      (FselRegs.get (sel 0xffffffff 7 7).fsel (fselReg 9)).getLsbD (fselShift 9 + j) := by decide

theorem witness_MasksCollectThePins : 22 ≤ 22 ∧ fnCode (sel 0 0 0x200).fsel 53 = 1 ∧ fnCode (sel 0 0 0x200).fsel 52 = 0 := by decide

/-- Pin 0 at a set request, pin 1 at a clear request, pin 2 at none, pin 3 not Output, a bit of no pin. -/
theorem witness_DerivePassPinByPin :
    let f := { sel 0x49 0 0 with gpset := ⟨1, 0⟩, gpclr := ⟨3, 0⟩ }
    (fnCode f.fsel 0 = 1 ∧ Bank.bit f.gpset 0 = true) ∧
    (fnCode f.fsel 1 = 1 ∧ Bank.bit f.gpset 1 = false ∧ Bank.bit f.gpclr 1 = true) ∧
    (Bank.bit f.gpset 2 = false ∧ Bank.bit f.gpclr 2 = false) ∧ fnCode f.fsel 3 ≠ 1 ∧ noPinAt 1 22 := by
  refine ⟨?_, ?_, ?_, ?_, rfl, Nat.le_refl _⟩ <;> decide

theorem reset_consumed : OneShotsConsumed RegFile.zero := by
  unfold OneShotsConsumed
  decide

/-- A tie at pin 0 in a state whose `P_TIE_CLEARS_CLR` is 0, no tie at pin 1; the default of the parameter; a state with nothing to consume. -/
theorem witness_DerivePassIsIdempotent :
    let f := { sel 0x9 0 0 with gpset := ⟨1, 0⟩, gpclr := ⟨3, 0⟩ }
    atTie f 0 ∧ ¬ atTie f 1 ∧ noPinAt 1 22 ∧
    ({ State.reset with params := { Config.defaultParams with tieClearsClr := false } } : State).params.tieClearsClr = false ∧
    State.reset.params.tieClearsClr = true ∧ OneShotsConsumed State.reset.regs := by
  refine ⟨?_, ?_, ⟨rfl, Nat.le_refl _⟩, rfl, rfl, reset_consumed⟩ <;> unfold atTie <;> decide

theorem witness_DeriveOrderCannotBeObserved : pins.reverse.Perm pins := List.reverse_perm pins

set_option maxRecDepth 100000 in
/-- A write of CLR[0] at a tie with a stuck SET bit, at both values of `P_TIE_CLEARS_CLR`. -/
theorem witness_OneShotBitsAfterAWrite :
    runsPasses 0x28 State.reset = true ∧ State.reset.params.tieClearsClr = true ∧
    let s := { State.reset with
      params := { Config.defaultParams with tieClearsClr := false }, regs := { sel 1 0 0 with gpset := ⟨1, 0⟩ } }
    let t := after (exec (.wrClr0 4 1) s)
    runsPasses 0x28 s = true ∧ s.params.tieClearsClr = false ∧ isOutput t.regs.fsel 0 = true ∧
      Bank.bit t.regs.gpclr 0 = true := by decide

set_option maxRecDepth 100000 in
/-- Pin 53 with a stuck SET bit, pin 52 with a stuck CLR bit alone; the write makes both Output. -/
theorem witness_StuckBitsAreReleased :
    let s := { State.reset with regs := { RegFile.zero with gpset := ⟨0, 0x200000⟩, gpclr := ⟨0, 0x100000⟩ } }
    let t := after (exec (.wrFsel5 4 0x240) s)
    fselReg 53 = 5 ∧ isOutput t.regs.fsel 53 = true ∧ Bank.bit s.regs.gpset 53 = true ∧
    fselReg 52 = 5 ∧ isOutput t.regs.fsel 52 = true ∧ Bank.bit s.regs.gpset 52 = false ∧ Bank.bit s.regs.gpclr 52 = true := by decide

/-- The agent is quiet after reset, so it stores to no field. -/
theorem quiet_noStore (f : ShmField) (n : Nat) : noStoreTo f n State.reset := by
  intro burst h
  simp [State.reset] at h

/-- A valid and an invalid bridge; a field the agent leaves alone; the bytes 23 and 24 at the edge of the pushed fields. -/
theorem witness_PushStoresTheEightFields :
    State.reset.bridgeValid = true ∧ broken.bridgeValid = false ∧ noStoreTo (.fsel 0) 8 State.reset ∧
    (∀ f ∈ pushedFields, 24 < f.addr ∨ f.addr + 4 ≤ 24) ∧ (∀ f ∈ pushedFields, 31 < f.addr ∨ f.addr + 4 ≤ 31) :=
  ⟨rfl, rfl, quiet_noStore _ _, by decide, by decide⟩

theorem witness_PushOrderDoesNotShowAfterwards : State.reset.bursts = [] := rfl

theorem witness_RecordMatchesAfterAWrite :
    runsPasses 0x00 State.reset = true ∧ State.reset.bridgeValid = true ∧ ∀ f ∈ pushedFields, noStoreTo f 8 State.reset :=
  ⟨rfl, rfl, fun f _ => quiet_noStore f 8⟩

/-- Pins 0 and 53 Input after reset, pin 10 Output; a bit of no pin; both states of the bridge. -/
theorem witness_PullCopiesTheInputLevels :
    State.reset.bridgeValid = true ∧ broken.bridgeValid = false ∧ isInput State.reset.regs.fsel 0 = true ∧
    isInput State.reset.regs.fsel 53 = true ∧ isInput (sel 0 1 0).fsel 10 = false ∧ noPinAt 1 22 :=
  ⟨rfl, rfl, by decide, by decide, by decide, rfl, Nat.le_refl _⟩

theorem witness_QuietPullInMaskForm : State.reset.bridgeValid = true ∧ State.reset.bursts = [] := ⟨rfl, rfl⟩

theorem witness_InvalidBridgeSkipsTheTransfers :
    broken.bridgeValid = false ∧ readable 0x34 = some (.level 0) ∧ writable 0x1c = some (.gpset 0) := by decide

theorem witness_TwoRecordsComeInTheWrittenOrder :
    broken.bridgeValid = false ∧ readable 0x1c = none ∧ writable 0x34 = none := by decide

theorem witness_BadOffsetReads : 0xff < 0x100 ∧ 0xff ∉ listedOffsets ∧ 0x01 ∉ listedOffsets ∧ 0x100 ≤ 0x100 := by decide

/-- With pin 0 Output and no request: nothing left to consume. -/
theorem witness_DetectRegisterWrites : OneShotsConsumed (sel 1 0 0) := by
  unfold OneShotsConsumed
  decide

theorem witness_PullControlWrites : OneShotsConsumed (sel 0 1 0) := by
  unfold OneShotsConsumed
  decide

theorem witness_BadOffsetWrites :
    0xff < 0x100 ∧ 0xff ∉ listedOffsets ∧ 0x01 ∉ listedOffsets ∧ 0x100 ≤ 0x100 ∧ OneShotsConsumed State.reset.regs ∧
    State.reset.params.postOnBadWrite = true ∧
    ({ State.reset with params := { Config.defaultParams with postOnBadWrite := false } } : State).params.postOnBadWrite = false :=
  ⟨by decide, by decide, by decide, by decide, reset_consumed, rfl, rfl⟩

/-- Pins 0 and 53 Output, no request of the other bank at an Output pin. -/
theorem witness_SetAndClearWrites :
    let f := sel 1 0 0x200
    (∀ p, bankReg p = 0 → isOutput f.fsel p = true → Bank.bit f.gpclr p = false) ∧
    (∀ p, bankReg p = 1 → isOutput f.fsel p = true → Bank.bit f.gpset p = false) ∧ isOutput f.fsel 0 = true ∧
    isOutput f.fsel 53 = true := by decide

theorem witness_SecondIdenticalWriteChangesNoRegister :
    State.reset.params.tieClearsClr = true ∧ OneShotsConsumed State.reset.regs := ⟨rfl, reset_consumed⟩

theorem witness_LineSetsAnInputLevel :
    fnCode State.reset.regs.fsel 53 = 0 ∧ fnCode (sel 0 1 0).fsel 10 ≠ 0 := by decide

theorem witness_LineLevelDoesNotSurviveARead :
    fnCode State.reset.regs.fsel 53 = 0 ∧ State.reset.bursts = [] ∧ fnCode broken.regs.fsel 0 = 0 ∧ broken.bursts = [] ∧
    broken.bridgeValid = false := by decide

theorem witness_InitAttachesTheRecord :
    ({ State.reset with inited := false } : State).inited = false ∧ State.reset.inited = true := ⟨rfl, rfl⟩

theorem witness_SnapLoadOverwritesTheRegisters :
    (List.replicate 29 (1 : Word)).length = 29 ∧ (List.replicate 28 (1 : Word)).length ≠ 29 ∧
    (List.replicate 30 (1 : Word)).length ≠ 29 := by decide

/-- A state with a byte in the record, in which a bus write is to come. -/
theorem witness_StepsKeepTheRecordCanonical :
    let s := { at_ (.busWrite 0x00 4 1) RegFile.zero with shm := [(39, 1)] }
    Canonical s ∧ ∃ t, step s = .next t := ⟨rfl, _, rfl⟩

theorem witness_StepsKeepOneShotsConsumed :
    let s := at_ (.busWrite 0x1c 4 1) (sel 1 0 0)
    Settled s ∧ nextIsSnapLoad s = false ∧ ∃ t, step s = .next t :=
  ⟨⟨rfl, rfl, witness_DetectRegisterWrites⟩, rfl, _, rfl⟩

theorem witness_StepsKeepNoPinBitsClear :
    let s := at_ (.busRead 0x38 4) (sel 1 0 0)
    NoPinClear s ∧ nextIsSnapLoad s = false ∧ ∃ t, step s = .next t :=
  ⟨⟨rfl, fun _ _ => by simp [at_, sel, RegFile.zero, Bank.zero], fun _ _ => by simp [at_, sel, RegFile.zero, Bank.zero]⟩, rfl, _, rfl⟩

set_option maxRecDepth 100000 in
/-- A set request raises pin 0, a clear request drops it, a reset drops it. -/
theorem witness_OutputLevelsChangeOnlyInDerive :
    (let s := at_ (.busWrite 0x1c 4 1) (sel 1 0 0)
     Bank.bit (after (step s)).regs.outstate 0 ≠ Bank.bit s.regs.outstate 0) ∧
    (let s := at_ (.busWrite 0x28 4 1) { sel 1 0 0 with outstate := ⟨1, 0⟩ }
     Bank.bit (after (step s)).regs.outstate 0 ≠ Bank.bit s.regs.outstate 0) ∧
    (let s := at_ .reset { sel 1 0 0 with outstate := ⟨1, 0⟩ }
     Bank.bit (after (step s)).regs.outstate 0 ≠ Bank.bit s.regs.outstate 0) := by decide

theorem witness_LevelOfANonInputPinIsFrozen :
    let s := at_ .reset { sel 1 0 0 with level := ⟨1, 0⟩ }
    (∃ t, step s = .next t) ∧ isInput s.regs.fsel 0 = false ∧ Bank.bit (after (step s)).regs.level 0 ≠ Bank.bit s.regs.level 0 :=
  ⟨⟨_, rfl⟩, by decide, by decide⟩

set_option maxRecDepth 100000 in
theorem witness_RegistersChangeOnlyByTheirOwnWrite :
    let s := at_ (.busWrite 0x94 4 2) RegFile.zero
    (∃ t, step s = .next t) ∧ (∀ r, Reg.pud ≠ .gpset r ∧ Reg.pud ≠ .gpclr r ∧ Reg.pud ≠ .level r) ∧
    RegFile.read (after (step s)).regs .pud ≠ RegFile.read s.regs .pud := ⟨⟨_, rfl⟩, by decide, by decide⟩

theorem witness_BridgeFixedAndTraceOnlyGrows :
    let s := at_ (.busRead 0x18 4) RegFile.zero
    s.inited = true ∧ ∃ t, step s = .next t := ⟨rfl, _, rfl⟩

theorem witness_EveryAdmittedEventHasANextState :
    decode (.init .found) = .ok (.init .found) ∧ ({ State.reset with inited := false } : State).inited = false ∧
    decode .reset = .ok .reset ∧ (∀ attach, Instr.reset ≠ .init attach) ∧
    decode (.line 54 1) = .error (.pinOutOfRange 54) ∧ decode (.snapLoad []) = .error (.snapshotLength 0) ∧
    decode (.unlisted 0x800) = .error (.noFormat 0x800) := ⟨rfl, rfl, rfl, fun _ h => Instr.noConfusion h, rfl, rfl, rfl⟩

/-- Two records that differ in bytes 23 and 32, next to the level fields, and agree on the level fields. -/
theorem witness_DeviceSeesOnlyTheLevelFields :
    (∀ a, 24 ≤ a → a < 32 → Memory.get [(23, 1), (24, 5), (32, 9)] a = Memory.get [(24, 5)] a) ∧
    ∃ t, exec (.rdLevel0 4) { State.reset with shm := [(24, 5)] } = .next t := by
  refine ⟨fun a h1 h2 => ?_, _, rfl⟩
  have h : ∀ k : Fin 8, Memory.get [(23, 1), (24, 5), (32, 9)] (24 + k.val) = Memory.get [(24, 5)] (24 + k.val) := by decide
  have e : 24 + (a - 24) = a := by omega
  rw [← e]
  exact h ⟨a - 24, by omega⟩

end Sys2Proof.Tests
end

section
/-! The two bus directions as a whole: every row of a decode table, and the catch-all rows beside it, run the common path over the register
map (R170, R210). The path has no width, which is what R122 asks. -/

namespace Sys2Proof.Machine

/-! The step on a pending event. -/

/-- The step on an event that decodes is the operation on the state without that event (R13, R82). -/
theorem step_of_decode {e : Event} {i : Instr} (h : decode e = .ok i) (s : State) :
    step { s with pending := .op e :: s.pending } = exec i s := by
  simp only [step, h]
  rfl

/-! Lookup in a row table. -/

theorem mem_of_tableAt_eq_some {α : Type} {rows : List (Nat × α)} {key : Nat} {x : α} (h : tableAt rows key = some x) :
    (key, x) ∈ rows := by
  induction rows with
  | nil => cases h
  | cons row rest ih =>
    rw [tableAt] at h
    split at h
    next hk =>
      cases h
      exact hk ▸ List.mem_cons_self
    next => exact List.mem_cons_of_mem _ (ih h)

theorem not_listed_of_tableAt_readRows {offset : Nat} (h : tableAt readRows offset = none) : offset ∉ listedOffsets := by
  have all : ∀ o ∈ listedOffsets, (tableAt readRows o).isSome = true := by decide
  intro hm
  simpa [h] using all offset hm

theorem not_listed_of_tableAt_writeRows {offset : Nat} (h : tableAt writeRows offset = none) : offset ∉ listedOffsets := by
  have all : ∀ o ∈ listedOffsets, (tableAt writeRows o).isSome = true := by decide
  intro hm
  simpa [h] using all offset hm

/-! The common path, split by the register map into its register branch and its bad-offset branch. -/

theorem busReadPath_eq_elim (offset width : Nat) (s : State) :
    busReadPath offset s = (readable offset).elim (readBad offset width s) (fun reg => readReg reg width s) := by
  cases h : readable offset <;> simp only [busReadPath, h, Option.elim_none, Option.elim_some, readBad, readReg]

theorem busWritePath_eq_elim (offset width value : Nat) (s : State) :
    busWritePath offset value s =
      (writable offset).elim (writeBad offset width value s) (fun reg => writeReg reg width value s) := by
  cases h : writable offset with
  | none => simp only [busWritePath, beforeDerive, runsPasses, h, Option.isSome_none, Bool.false_or, Option.elim_none, writeBad]
  | some reg =>
    simp only [busWritePath, beforeDerive, runsPasses, h, Option.isSome_some, Bool.true_or, if_true, Option.elim_some, writeReg]

theorem busReadPath_of_unlisted {offset : Nat} (h : offset ∉ listedOffsets) (width : Nat) (s : State) :
    busReadPath offset s = readBad offset width s := by
  have hr : readable offset = none := registerAt_unlisted _ h
  rw [busReadPath_eq_elim offset width, hr, Option.elim_none]

theorem busWritePath_of_unlisted {offset : Nat} (h : offset ∉ listedOffsets) (width value : Nat) (s : State) :
    busWritePath offset value s = writeBad offset width value s := by
  have hw : writable offset = none := registerAt_unlisted _ h
  rw [busWritePath_eq_elim offset width, hw, Option.elim_none]

/-! Each row of the two tables against the register map: the map is looked up at the row's literal offset, so both sides compute to the same
branch. -/

theorem exec_readRow {row : Nat × (Nat → Instr)} (h : row ∈ readRows) (width : Nat) (s : State) :
    exec (row.2 width) s = .next (busReadPath row.1 s) := by
  rw [busReadPath_eq_elim row.1 width]
  fin_cases h <;> rfl

theorem exec_writeRow {row : Nat × (Nat → Nat → Instr)} (h : row ∈ writeRows) (width value : Nat) (s : State) :
    exec (row.2 width value) s = .next (busWritePath row.1 value s) := by
  rw [busWritePath_eq_elim row.1 width]
  fin_cases h <;> rfl

/-! Every bus transaction. -/

/-- What a bus read decodes to runs the common path of its offset, whatever its width (R170). -/
theorem exec_decodeRead (offset width : Nat) (s : State) :
    exec (decodeRead offset width) s = .next (busReadPath offset s) := by
  unfold decodeRead
  cases h : tableAt readRows offset with
  | some row => exact exec_readRow (mem_of_tableAt_eq_some h) width s
  | none =>
    rw [busReadPath_of_unlisted (not_listed_of_tableAt_readRows h) width]
    by_cases hw : offset < Config.MMIO_WINDOW
    · simp only [if_pos hw]
      rfl
    · simp only [if_neg hw]
      rfl

/-- What a bus write decodes to runs the common path of its offset and value, whatever its width (R210). -/
theorem exec_decodeWrite (offset width value : Nat) (s : State) :
    exec (decodeWrite offset width value) s = .next (busWritePath offset value s) := by
  unfold decodeWrite
  cases h : tableAt writeRows offset with
  | some row => exact exec_writeRow (mem_of_tableAt_eq_some h) width value s
  | none =>
    rw [busWritePath_of_unlisted (not_listed_of_tableAt_writeRows h) width]
    by_cases hw : offset < Config.MMIO_WINDOW
    · simp only [if_pos hw]
      rfl
    · simp only [if_neg hw]
      rfl

theorem step_busRead (offset width : Nat) (s : State) :
    step { s with pending := .op (.busRead offset width) :: s.pending } = .next (busReadPath offset s) :=
  (step_of_decode rfl s).trans (exec_decodeRead offset width s)

theorem step_busWrite (offset width value : Nat) (s : State) :
    step { s with pending := .op (.busWrite offset width value) :: s.pending } = .next (busWritePath offset value s) :=
  (step_of_decode rfl s).trans (exec_decodeWrite offset width value s)

/-- Settles O10: with either width the step is the common path, and the path has no width (R122). -/
theorem widthIsIgnored : Obligations.WidthIsIgnored := by
  unfold Obligations.WidthIsIgnored
  constructor
  · intro offset w w' s
    rw [step_busRead, step_busRead]
  · intro offset w w' value s
    rw [step_busWrite, step_busWrite]

end Sys2Proof.Machine
end

section
/-! The pin-function decoder (R140): its code as an arithmetic form of the pin's register and bit by bit, and the operation that delivers it. -/

namespace Sys2Proof.Machine

/-- `(FSEL[n] >> (3*k)) & 7` as numbers: the shift is a quotient, the mask a remainder (R140). -/
theorem fnCode_toNat (f : FselRegs) (p : Pin) :
    (fnCode f p).toNat = (FselRegs.get f (fselReg p)).toNat / 2 ^ fselShift p % 8 := by
  rw [fnCode, BitVec.toNat_setWidth, BitVec.toNat_ushiftRight, Nat.shiftRight_eq_div_pow]

/-- Bit `j` of the code is bit `j` of the pin's field (R123, R140). -/
theorem fnCode_getLsbD (f : FselRegs) (p : Pin) {j : Nat} (hj : j < 3) :
    (fnCode f p).getLsbD j = (FselRegs.get f (fselReg p)).getLsbD (fselShift p + j) := by
  rw [fnCode, BitVec.getLsbD_setWidth, BitVec.getLsbD_ushiftRight, decide_eq_true hj, Bool.true_and]

/-- Register files that agree on the three bits of a pin's field give the pin the same code (R142). -/
theorem fnCode_congr {f g : FselRegs} {p : Pin}
    (h : ∀ j, j < 3 → (FselRegs.get f (fselReg p)).getLsbD (fselShift p + j) =
      (FselRegs.get g (fselReg p)).getLsbD (fselShift p + j)) : fnCode f p = fnCode g p := by
  refine BitVec.eq_of_getLsbD_eq fun j hj => ?_
  calc (fnCode f p).getLsbD j
      = (FselRegs.get f (fselReg p)).getLsbD (fselShift p + j) := fnCode_getLsbD f p hj
    _ = (FselRegs.get g (fselReg p)).getLsbD (fselShift p + j) := h j hj
    _ = (fnCode g p).getLsbD j := (fnCode_getLsbD g p hj).symm

/-- The operation `fn(p)` delivers the code and writes nothing else of the state (R140, R142). -/
theorem exec_fn (p : Pin) (s : State) :
    exec (.fn p) s = .next { s with result := .code (fnCode s.regs.fsel p) } := rfl

/-- Settles O14: the code delivered is the decoder's, and its number is the quotient form of R140. -/
theorem functionDecodeDeliversTheField : Obligations.FunctionDecodeDeliversTheField := by
  unfold Obligations.FunctionDecodeDeliversTheField
  intro p s
  exact ⟨fnCode s.regs.fsel p, exec_fn p s, fnCode_toNat s.regs.fsel p⟩

/-- Settles O15: both states deliver their own code, and the two codes agree as their fields do (R142). -/
theorem functionDecodeReadsThreeBits : Obligations.FunctionDecodeReadsThreeBits := by
  unfold Obligations.FunctionDecodeReadsThreeBits
  intro p s t h
  have hcode : fnCode t.regs.fsel p = fnCode s.regs.fsel p := (fnCode_congr h).symm
  exact ⟨fnCode s.regs.fsel p, exec_fn p s, hcode ▸ exec_fn p t⟩

end Sys2Proof.Machine
end

section
/-! The output-state deriver (R150): one pin's bits after a pass, what a pass keeps, and from these a second pass and the order of the pins. -/

namespace Sys2Proof.Machine

/-! A bank is its pins' bits and its no-pin bits. -/

/-- Two banks are equal when they agree at every pin and at every place of no pin (R28, R124). -/
theorem Bank.eq_of_bit {k k' : Bank} (hpin : ∀ p, k.bit p = k'.bit p)
    (hrest : ∀ r j, noPinAt r j → (k.get r).getLsbD j = (k'.get r).getLsbD j) : k = k' := by
  refine Bank.eq_of_get fun r => BitVec.eq_of_getLsbD_eq fun j hj => ?_
  rcases pin_or_noPin r j hj with ⟨p, rfl, rfl⟩ | hno
  · exact hpin p
  · exact hrest r j hno

theorem bitsAt_eq_iff {f : RegFile} {p : Pin} {o s c : Bool} :
    bitsAt f p = (o, s, c) ↔ Bank.bit f.outstate p = o ∧ Bank.bit f.gpset p = s ∧ Bank.bit f.gpclr p = c := by
  simp only [bitsAt, Prod.mk.injEq]

theorem isOutput_iff {f : FselRegs} {p : Pin} : isOutput f p = true ↔ fnCode f p = 1 := beq_iff_eq

theorem isOutput_eq_false_iff {f : FselRegs} {p : Pin} : isOutput f p = false ↔ fnCode f p ≠ 1 := beq_eq_false_iff_ne

/-! What a pass keeps. -/

/-- The frame of a pass over any pins: everything outside the three banks, and the bits of the three banks that belong to no pin (R28, R155). -/
structure DeriveFrame (f g : RegFile) : Prop where
  rest : g = { f with outstate := g.outstate, gpset := g.gpset, gpclr := g.gpclr }
  noPin : ∀ r j, noPinAt r j →
    (Bank.get g.outstate r).getLsbD j = (Bank.get f.outstate r).getLsbD j ∧
    (Bank.get g.gpset r).getLsbD j = (Bank.get f.gpset r).getLsbD j ∧
    (Bank.get g.gpclr r).getLsbD j = (Bank.get f.gpclr r).getLsbD j

theorem DeriveFrame.refl (f : RegFile) : DeriveFrame f f := ⟨rfl, fun _ _ _ => ⟨rfl, rfl, rfl⟩⟩

theorem deriveFrame_foldl (tie : Bool) (l : List Pin) (f : RegFile) : DeriveFrame f (l.foldl (derivePin tie) f) :=
  ⟨foldl_derivePin_frame tie l f, fun r j h => foldl_derivePin_place tie l f r j (not_pin_of_noPin h)⟩

theorem deriveFrame_deriveRegs (tie : Bool) (f : RegFile) : DeriveFrame f (deriveRegs tie f) := deriveFrame_foldl tie pins f

/-- Inside the frame a register file is determined by the pins' bits. -/
theorem DeriveFrame.eq_of_bitsAt {f g h : RegFile} (hg : DeriveFrame f g) (hh : DeriveFrame f h)
    (hbits : ∀ p, bitsAt g p = bitsAt h p) : g = h := by
  have hpin := fun p => bitsAt_eq_iff.mp (hbits p)
  have hout : g.outstate = h.outstate :=
    Bank.eq_of_bit (fun p => (hpin p).1) fun r j hno => (hg.noPin r j hno).1.trans (hh.noPin r j hno).1.symm
  have hset : g.gpset = h.gpset :=
    Bank.eq_of_bit (fun p => (hpin p).2.1) fun r j hno => (hg.noPin r j hno).2.1.trans (hh.noPin r j hno).2.1.symm
  have hclr : g.gpclr = h.gpclr :=
    Bank.eq_of_bit (fun p => (hpin p).2.2) fun r j hno => (hg.noPin r j hno).2.2.trans (hh.noPin r j hno).2.2.symm
  rw [hg.rest, hh.rest, hout, hset, hclr]

/-- The order of a list of different pins does not matter: each pin's bits depend on that pin's alone (R157). -/
theorem foldl_derivePin_perm {l l' : List Pin} (hperm : l.Perm l') (hnodup : l.Nodup) (tie : Bool) (f : RegFile) :
    l.foldl (derivePin tie) f = l'.foldl (derivePin tie) f := by
  refine (deriveFrame_foldl tie l f).eq_of_bitsAt (deriveFrame_foldl tie l' f) fun p => ?_
  rw [bitsAt_foldl_derivePin tie l hnodup, bitsAt_foldl_derivePin tie l' (hperm.nodup_iff.mp hnodup)]
  simp only [hperm.mem_iff]

/-! One pin's bits after a pass, by the branch of R150 the pin takes. -/

theorem bitsAt_deriveRegs_of_set {f : RegFile} {p : Pin} (tie : Bool) (hout : isOutput f.fsel p = true)
    (hset : Bank.bit f.gpset p = true) :
    bitsAt (deriveRegs tie f) p = (true, false, !tie && Bank.bit f.gpclr p) := by
  rw [bitsAt_deriveRegs]
  simp only [bitsAt, deriveBits, hout, hset, if_true]

theorem bitsAt_deriveRegs_of_clr {f : RegFile} {p : Pin} (tie : Bool) (hout : isOutput f.fsel p = true)
    (hset : Bank.bit f.gpset p = false) (hclr : Bank.bit f.gpclr p = true) :
    bitsAt (deriveRegs tie f) p = (false, false, false) := by
  rw [bitsAt_deriveRegs]
  simp only [bitsAt, deriveBits, hout, hset, hclr, if_true, Bool.false_eq_true, if_false]

theorem bitsAt_deriveRegs_of_idle {f : RegFile} {p : Pin} (tie : Bool)
    (h : isOutput f.fsel p = false ∨ (Bank.bit f.gpset p = false ∧ Bank.bit f.gpclr p = false)) :
    bitsAt (deriveRegs tie f) p = bitsAt f p := by
  rw [bitsAt_deriveRegs]
  rcases h with hout | ⟨hset, hclr⟩
  · simp only [bitsAt, deriveBits, hout, Bool.false_eq_true, if_false]
  · simp only [bitsAt, deriveBits, hset, hclr, Bool.false_eq_true, if_false, ite_self]

/-- A pass leaves of an Output pin's requests at most the clear request of a tie, and that only where `P_TIE_CLEARS_CLR` is 0 (R51, R151). -/
theorem oneShots_deriveRegs_of_output {f : RegFile} {p : Pin} (tie : Bool) (hout : isOutput f.fsel p = true) :
    Bank.bit (deriveRegs tie f).gpset p = false ∧
    Bank.bit (deriveRegs tie f).gpclr p = (!tie && (Bank.bit f.gpset p && Bank.bit f.gpclr p)) := by
  cases hset : Bank.bit f.gpset p with
  | true =>
    obtain ⟨-, hset', hclr'⟩ := bitsAt_eq_iff.mp (bitsAt_deriveRegs_of_set tie hout hset)
    exact ⟨hset', hclr'⟩
  | false =>
    simp only [Bool.false_and, Bool.and_false]
    cases hclr : Bank.bit f.gpclr p with
    | true => exact (bitsAt_eq_iff.mp (bitsAt_deriveRegs_of_clr tie hout hset hclr)).2
    | false =>
      obtain ⟨-, hset', hclr'⟩ := bitsAt_eq_iff.mp (bitsAt_deriveRegs_of_idle tie (.inr ⟨hset, hclr⟩))
      exact ⟨hset'.trans hset, hclr'.trans hclr⟩

/-! A pass that finds nothing to do, and a second pass (R156). -/

theorem deriveRegs_of_consumed {f : RegFile} (tie : Bool) (h : OneShotsConsumed f) : deriveRegs tie f = f := by
  refine (deriveFrame_deriveRegs tie f).eq_of_bitsAt (.refl f) fun p => bitsAt_deriveRegs_of_idle tie ?_
  cases hout : isOutput f.fsel p with
  | true => exact .inr (h p hout)
  | false => exact .inl rfl

/-- Where `P_TIE_CLEARS_CLR` is 1 a pass consumes every one-shot bit of the Output pins (R51). -/
theorem oneShotsConsumed_deriveRegs (f : RegFile) : OneShotsConsumed (deriveRegs true f) := by
  intro p hout
  rw [deriveRegs_fsel] at hout
  exact oneShots_deriveRegs_of_output true hout

/-- A second pass finds nothing to do at a pin that was not at a tie. -/
theorem bitsAt_deriveRegs_twice_of_not_atTie {f : RegFile} {p : Pin} (tie : Bool) (h : ¬ atTie f p) :
    bitsAt (deriveRegs tie (deriveRegs tie f)) p = bitsAt (deriveRegs tie f) p := by
  refine bitsAt_deriveRegs_of_idle tie ?_
  rw [deriveRegs_fsel]
  cases hout : isOutput f.fsel p with
  | false => exact .inl rfl
  | true =>
    obtain ⟨hset, hclr⟩ := oneShots_deriveRegs_of_output tie hout
    have hnotBoth : (Bank.bit f.gpset p && Bank.bit f.gpclr p) = false :=
      Bool.eq_false_iff.mpr fun hboth => h ⟨hout, Bool.and_eq_true_iff.mp hboth⟩
    rw [hnotBoth, Bool.and_false] at hclr
    exact .inr ⟨hset, hclr⟩

/-- At a tie with `P_TIE_CLEARS_CLR` 0 the first pass applies the set request, and the second the clear request it left (R151, R156). -/
theorem bitsAt_deriveRegs_of_atTie {f : RegFile} {p : Pin} (h : atTie f p) :
    bitsAt (deriveRegs false f) p = (true, false, true) ∧
    bitsAt (deriveRegs false (deriveRegs false f)) p = (false, false, false) := by
  obtain ⟨hout, hset, hclr⟩ := h
  have hfirst : bitsAt (deriveRegs false f) p = (true, false, true) := by
    rw [bitsAt_deriveRegs_of_set false hout hset, hclr]
    rfl
  obtain ⟨-, hset', hclr'⟩ := bitsAt_eq_iff.mp hfirst
  exact ⟨hfirst, bitsAt_deriveRegs_of_clr false (by rwa [deriveRegs_fsel]) hset' hclr'⟩

/-- The set requests a first pass leaves are of pins that are not Output, so a second pass leaves them too. -/
theorem gpset_deriveRegs_twice (tie : Bool) (f : RegFile) :
    (deriveRegs tie (deriveRegs tie f)).gpset = (deriveRegs tie f).gpset := by
  refine Bank.eq_of_bit (fun p => ?_) fun r j hno => ((deriveFrame_deriveRegs tie (deriveRegs tie f)).noPin r j hno).2.1
  cases hout : isOutput f.fsel p with
  | true =>
    have hfirst := (oneShots_deriveRegs_of_output tie hout).1
    have hsecond := (oneShots_deriveRegs_of_output tie (f := deriveRegs tie f) (by rwa [deriveRegs_fsel])).1
    exact hsecond.trans hfirst.symm
  | false =>
    have hsame := bitsAt_deriveRegs_of_idle tie (f := deriveRegs tie f) (.inl (by rwa [deriveRegs_fsel]))
    exact (bitsAt_eq_iff.mp hsame).2.1

/-! The operation, and the three statements about it. -/

/-- The operation replaces the register file by its derived one and nothing else of the state (R150, R155). -/
theorem exec_derive (s : State) :
    exec .derive s = .next { s with regs := deriveRegs s.params.tieClearsClr s.regs } := rfl

/-- Settles O18: each clause is one branch of R150, and the frame is the pass's own. -/
theorem derivePassPinByPin : Obligations.DerivePassPinByPin := by
  unfold Obligations.DerivePassPinByPin
  intro s
  have hframe := deriveFrame_deriveRegs s.params.tieClearsClr s.regs
  refine ⟨_, exec_derive s, ?frame, ?set, ?clear, ?idle, hframe.noPin⟩
  case frame => exact congrArg s.withRegs hframe.rest
  case set =>
    intro p hcode hset
    exact bitsAt_eq_iff.mp (bitsAt_deriveRegs_of_set _ (isOutput_iff.mpr hcode) hset)
  case clear =>
    intro p hcode hset hclr
    exact bitsAt_eq_iff.mp (bitsAt_deriveRegs_of_clr _ (isOutput_iff.mpr hcode) hset hclr)
  case idle =>
    intro p h
    exact bitsAt_eq_iff.mp (bitsAt_deriveRegs_of_idle _ (h.imp_left isOutput_eq_false_iff.mpr))

/-- Settles O20: with `P_TIE_CLEARS_CLR` 1 the first pass leaves nothing to consume; with 0 it leaves the clear requests of the ties (R156). -/
theorem derivePassIsIdempotent : Obligations.DerivePassIsIdempotent := by
  unfold Obligations.DerivePassIsIdempotent
  intro s
  refine ⟨_, _, exec_derive s, exec_derive _, ?tieClears, ?tieKeeps, ?consumed⟩
  case tieClears =>
    intro htie
    rw [htie, deriveRegs_of_consumed true (oneShotsConsumed_deriveRegs s.regs)]
  case tieKeeps =>
    intro htie
    rw [htie]
    have hframe := deriveFrame_deriveRegs false (deriveRegs false s.regs)
    refine ⟨fun p h => ?atTie, fun p h => ?notAtTie, fun r j hno => ?noPin, ?frame⟩
    case atTie =>
      obtain ⟨hfirst, hsecond⟩ := bitsAt_deriveRegs_of_atTie h
      obtain ⟨hout, hset, hclr⟩ := bitsAt_eq_iff.mp hfirst
      obtain ⟨hout', -, hclr'⟩ := bitsAt_eq_iff.mp hsecond
      exact ⟨hout, hset, hclr, hout', hclr'⟩
    case notAtTie =>
      obtain ⟨hout, -, hclr⟩ := bitsAt_eq_iff.mp (bitsAt_deriveRegs_twice_of_not_atTie false h)
      exact ⟨hout, hclr⟩
    case noPin =>
      obtain ⟨hout, -, hclr⟩ := hframe.noPin r j hno
      exact ⟨hout, hclr⟩
    case frame =>
      have hregs := hframe.rest
      rw [gpset_deriveRegs_twice] at hregs
      exact congrArg s.withRegs hregs
  case consumed =>
    intro h
    rw [deriveRegs_of_consumed _ h]

/-- Settles O21: the pins in ascending order are one arrangement of different pins, and any other gives the same register file (R157). -/
theorem deriveOrderCannotBeObserved : Obligations.DeriveOrderCannotBeObserved := by
  unfold Obligations.DeriveOrderCannotBeObserved
  intro order hperm s
  rw [exec_derive, deriveRegs, foldl_derivePin_perm hperm.symm pins_nodup]

end Sys2Proof.Machine
end

section
/-! The derive pass in mask form (R152): at each place of the three banks the mask form does what the pass does to the pin there. -/

namespace Sys2Proof.Machine

/-- The three bits of one place of a triple of registers, as `bitsAt` orders them. -/
def placeBits (w : Word × Word × Word) (j : Nat) : Bool × Bool × Bool :=
  (w.1.getLsbD j, w.2.1.getLsbD j, w.2.2.getLsbD j)

theorem eq_of_placeBits {v w : Word × Word × Word} (h : ∀ j, j < 32 → placeBits v j = placeBits w j) : v = w := by
  have hbits (j : Nat) (hj : j < 32) : v.1.getLsbD j = w.1.getLsbD j ∧
      v.2.1.getLsbD j = w.2.1.getLsbD j ∧ v.2.2.getLsbD j = w.2.2.getLsbD j := by
    simpa only [placeBits, Prod.mk.injEq] using h j hj
  have hout : v.1 = w.1 := BitVec.eq_of_getLsbD_eq fun j hj => (hbits j hj).1
  have hset : v.2.1 = w.2.1 := BitVec.eq_of_getLsbD_eq fun j hj => (hbits j hj).2.1
  have hclr : v.2.2 = w.2.2 := BitVec.eq_of_getLsbD_eq fun j hj => (hbits j hj).2.2
  exact Prod.ext hout (Prod.ext hset hclr)

/-- The OUTSTATE, SET and CLR registers `r` of a register file, in the order of `deriveMasked`. -/
def bankWords (f : RegFile) (r : Fin 2) : Word × Word × Word :=
  (Bank.get f.outstate r, Bank.get f.gpset r, Bank.get f.gpclr r)

/-- At a pin's place the registers hold that pin's bits (R124). -/
theorem placeBits_bankWords (f : RegFile) (p : Pin) : placeBits (bankWords f (bankReg p)) (bankBit p) = bitsAt f p := rfl

/-- At each place the mask form does what the pass does to one pin, the mask's bit telling whether that pin is Output (R150, R152). -/
theorem placeBits_deriveMasked (tie : Bool) (o set clr out : Word) {j : Nat} (hj : j < 32) :
    placeBits (deriveMasked tie o set clr out) j = deriveBits tie (o.getLsbD j) (placeBits (out, set, clr) j) := by
  simp only [placeBits, deriveMasked, apply_ite (BitVec.getLsbD · j), BitVec.getLsbD_and, BitVec.getLsbD_or,
    BitVec.getLsbD_not, decide_eq_true hj, Bool.true_and]
  cases o.getLsbD j with
  | false => cases tie <;> simp [deriveBits]
  | true =>
    cases set.getLsbD j with
    | true => cases tie <;> simp [deriveBits]
    | false => cases clr.getLsbD j <;> cases tie <;> simp [deriveBits]

/-- Everything the derive pass does to a register file (R150, R152, R155). -/
theorem deriveRegs_effect (tie : Bool) (f : RegFile) : DeriveEffect tie f (deriveRegs tie f) := by
  refine ⟨fun r => eq_of_placeBits fun j hj => ?_, deriveRegs_frame tie f⟩
  rw [placeBits_deriveMasked _ _ _ _ _ hj]
  change placeBits (bankWords (deriveRegs tie f) r) j =
    deriveBits tie ((outMask f.fsel r).getLsbD j) (placeBits (bankWords f r) j)
  rcases pin_or_noPin r j hj with ⟨p, rfl, rfl⟩ | hno
  · rw [outMask, getLsbD_maskOf_pin, placeBits_bankWords, placeBits_bankWords, bitsAt_deriveRegs]
  · rw [outMask, getLsbD_maskOf_noPin _ hno]
    obtain ⟨hout, hset, hclr⟩ := deriveRegs_noPin tie f hno
    exact congrArg₂ Prod.mk hout (congrArg₂ Prod.mk hset hclr)

end Sys2Proof.Machine
end

section
/-! The shared bridge (42_shared_bridge.md): the push and the pull as operations, and the bus with an invalid bridge (R166). -/

namespace Sys2Proof.Machine

/-! The operations. -/

theorem exec_push (s : State) : exec .push s = .next s.push := rfl

theorem exec_pull (s : State) : exec .pull s = .next s.pull := rfl

/-- Settles O24: the operation is the shared push, whose effect `push_effect` states. -/
theorem pushStoresTheEightFields : Obligations.PushStoresTheEightFields := by
  unfold Obligations.PushStoresTheEightFields
  intro s
  exact ⟨s.push, exec_push s, push_effect s⟩

/-- Settles O27: the operation is the shared pull, whose effect `pull_effect` states. -/
theorem pullCopiesTheInputLevels : Obligations.PullCopiesTheInputLevels := by
  unfold Obligations.PullCopiesTheInputLevels
  intro s
  exact ⟨s.pull, exec_pull s, pull_effect s⟩

/-! The bus with an invalid bridge: a transfer is one record, and the rest of the operation goes on. -/

theorem readReg_of_invalid {s : State} (hv : s.bridgeValid = false) (reg : Reg) (width : Nat) :
    readReg reg width s =
      { s with diag := s.diag ++ [.bridgeSkipped .pull], result := .busData (zext (RegFile.read s.regs reg)) } := by
  unfold readReg
  rw [(pull_effect s).skipped hv]
  rfl

theorem writeReg_of_invalid {s : State} (hv : s.bridgeValid = false) (reg : Reg) (width value : Nat) :
    writeReg reg width value s =
      { s with regs := deriveRegs s.params.tieClearsClr
                 (RegFile.write { s.regs with wcount := s.regs.wcount + 1 } reg (trunc32 value))
               diag := s.diag ++ [.bridgeSkipped .push], result := .nothing } := by
  rw [writeReg_eq_push]
  exact (push_effect _).skipped hv

/-- Settles O29: the common path of a readable or writable offset is its register branch, whose transfer is one record (R166, R170, R210). -/
theorem invalidBridgeSkipsTheTransfers : Obligations.InvalidBridgeSkipsTheTransfers := by
  unfold Obligations.InvalidBridgeSkipsTheTransfers
  intro s hv
  refine ⟨fun offset reg width hr => ?read, fun offset reg width value hw => ?write⟩
  case read =>
    refine ⟨_, rfl, ?_⟩
    rw [exec_decodeRead, busReadPath_eq_elim offset width, hr, Option.elim_some, readReg_of_invalid hv]
  case write =>
    refine ⟨_, _, rfl, deriveRegs_effect _ _, ?_⟩
    rw [exec_decodeWrite, busWritePath_eq_elim offset width, hw, Option.elim_some, writeReg_of_invalid hv]

end Sys2Proof.Machine
end

section
/-! Bus reads (43_mmio_read.md): a row of the read table beside the register the map names at its offset is a `ReadRow`, and where that
register is not LEVEL a `StoredReadRow`. Each row of R171 to R195 is then two lookups at its literal offset. -/

namespace Sys2Proof.Machine

/-- Settles O8: every bus read decodes, and what it decodes to runs the common path (`exec_decodeRead`). -/
theorem busReadsFollowTheCommonPath : Obligations.BusReadsFollowTheCommonPath := by
  unfold Obligations.BusReadsFollowTheCommonPath
  intro offset width s
  exact ⟨decodeRead offset width, rfl, exec_decodeRead offset width s⟩

/-! A row of the read table. -/

/-- The selector of a bus read is its offset, the operand word its width (R113; notes/assumptions/9.md). -/
theorem decodeWords_busRead {sel : Nat} (h : sel < 512) (ops : List Nat) :
    decodeWords sel ops = .ok (decodeRead sel (operand ops 0)) := by
  simp only [decodeWords, unpack, Nat.div_eq_of_lt h, Nat.mod_eq_of_lt h, decode]

theorem readRow_offset_lt {row : Nat × (Nat → Instr)} (h : row ∈ readRows) : row.1 < 512 := by
  have all : ∀ offset ∈ readRows.map Prod.fst, offset < 512 := by decide
  exact all _ (List.mem_map_of_mem h)

theorem decodeWords_of_readRow {sel : Nat} {op : Nat → Instr} (hop : tableAt readRows sel = some op) (ops : List Nat) :
    decodeWords sel ops = .ok (op (operand ops 0)) := by
  have hsel : sel < 512 := readRow_offset_lt (mem_of_tableAt_eq_some hop)
  rw [decodeWords_busRead hsel, decodeRead, hop]

/-- A row at a readable offset is the readable branch of the common path (R170). -/
theorem exec_readRow_of_readable {sel : Nat} {op : Nat → Instr} {reg : Reg} (hop : tableAt readRows sel = some op)
    (hreg : readable sel = some reg) (width : Nat) (s : State) : exec (op width) s = .next (readReg reg width s) := by
  rw [exec_readRow (mem_of_tableAt_eq_some hop) width s, busReadPath_eq_elim sel width, hreg, Option.elim_some]

/-! The register it returns. -/

/-- A pull changes no register's read but that of LEVEL (R163, R165). -/
theorem read_pull_of_not_level {reg : Reg} (h : ∀ r, reg ≠ .level r) (s : State) :
    s.pull.regs.read reg = s.regs.read reg := by
  rw [pull_regs]
  cases reg with
  | level r => exact absurd rfl (h r)
  | _ => rfl

/-- The pull of the common path leaves the register that is returned (R170). -/
theorem readRow_of_readable {sel : Nat} {op : Nat → Instr} (reg : Reg) (hop : tableAt readRows sel = some op)
    (hreg : readable sel = some reg) : ReadRow sel op (fun f => f.read reg) :=
  ⟨decodeWords_of_readRow hop,
    fun width s => ⟨readReg reg width s, exec_readRow_of_readable hop hreg width s, readReg_effect reg width s⟩⟩

/-- A register other than LEVEL is returned as it stood before the read, since the pull does not change it (R163, R170). -/
theorem storedReadRow_of_readable {sel : Nat} {op : Nat → Instr} (reg : Reg) (hlevel : ∀ r, reg ≠ .level r)
    (hop : tableAt readRows sel = some op) (hreg : readable sel = some reg) :
    StoredReadRow sel op (fun f => f.read reg) := by
  refine ⟨readRow_of_readable reg hop hreg, fun width s => ?_⟩
  have hkept : s.pull.regs.read reg = s.regs.read reg := read_pull_of_not_level hlevel s
  have hresult : (readReg reg width s).result = .busData (zext (s.regs.read reg)) := by
    rw [readReg, State.deliver_result, hkept]
  exact ⟨readReg reg width s, exec_readRow_of_readable hop hreg width s, hresult, hkept⟩

/-! The rows. Each names its register; the decode table and the register map are looked up at the row's offset. -/

/-- Settles O31: `FSEL[0]` to `FSEL[5]` stand at 0x00 to 0x14 (R171 to R176). -/
theorem functionSelectReads : Obligations.FunctionSelectReads := by
  unfold Obligations.FunctionSelectReads
  exact
    ⟨storedReadRow_of_readable (.fsel 0) nofun rfl rfl, storedReadRow_of_readable (.fsel 1) nofun rfl rfl,
      storedReadRow_of_readable (.fsel 2) nofun rfl rfl, storedReadRow_of_readable (.fsel 3) nofun rfl rfl,
      storedReadRow_of_readable (.fsel 4) nofun rfl rfl, storedReadRow_of_readable (.fsel 5) nofun rfl rfl⟩

/-- Settles O32: the pull may change LEVEL, so these rows return the register the pull leaves (R177, R178). -/
theorem levelReads : Obligations.LevelReads := by
  unfold Obligations.LevelReads
  exact ⟨readRow_of_readable (.level 0) rfl rfl, readRow_of_readable (.level 1) rfl rfl⟩

/-- Settles O33: two rows for each of EDS, REN, FEN, HEN, LEN and AREN (R179 to R190). -/
theorem detectRegisterReads : Obligations.DetectRegisterReads := by
  unfold Obligations.DetectRegisterReads
  exact
    ⟨storedReadRow_of_readable (.eds 0) nofun rfl rfl, storedReadRow_of_readable (.eds 1) nofun rfl rfl,
      storedReadRow_of_readable (.ren 0) nofun rfl rfl, storedReadRow_of_readable (.ren 1) nofun rfl rfl,
      storedReadRow_of_readable (.fen 0) nofun rfl rfl, storedReadRow_of_readable (.fen 1) nofun rfl rfl,
      storedReadRow_of_readable (.hen 0) nofun rfl rfl, storedReadRow_of_readable (.hen 1) nofun rfl rfl,
      storedReadRow_of_readable (.len 0) nofun rfl rfl, storedReadRow_of_readable (.len 1) nofun rfl rfl,
      storedReadRow_of_readable (.aren 0) nofun rfl rfl, storedReadRow_of_readable (.aren 1) nofun rfl rfl⟩

/-- Settles O34: two rows of AFEN, one of PUD and two of PUDCLK (R191 to R195). -/
theorem pullControlReads : Obligations.PullControlReads := by
  unfold Obligations.PullControlReads
  exact
    ⟨storedReadRow_of_readable (.afen 0) nofun rfl rfl, storedReadRow_of_readable (.afen 1) nofun rfl rfl,
      storedReadRow_of_readable .pud nofun rfl rfl, storedReadRow_of_readable (.pudclk 0) nofun rfl rfl,
      storedReadRow_of_readable (.pudclk 1) nofun rfl rfl⟩

end Sys2Proof.Machine
end

section
/-! Bus writes (44_mmio_write.md): a row of the write table at the offset of a writable register is a `WriteRow`, and where that register is
storage only (R39) a `StorageWriteRow`. Each row of R211 to R216 and R221 to R237 is then two lookups at its literal offset. -/

namespace Sys2Proof.Machine

/-- Settles O9: every bus write decodes, and what it decodes to runs the common path (`exec_decodeWrite`). -/
theorem busWritesFollowTheCommonPath : Obligations.BusWritesFollowTheCommonPath := by
  unfold Obligations.BusWritesFollowTheCommonPath
  intro offset width value s
  exact ⟨decodeWrite offset width value, rfl, exec_decodeWrite offset width value s⟩

/-! A row of the write table. -/

/-- The selector of a bus write is 0x200 above its offset, the operand words its width and value (R114; notes/assumptions/9.md). -/
theorem decodeWords_busWrite {offset : Nat} (h : offset < 512) (ops : List Nat) :
    decodeWords (0x200 + offset) ops = .ok (decodeWrite offset (operand ops 0) (operand ops 1)) := by
  have hdir : (0x200 + offset) / 512 = 1 := by omega
  have hoffset : (0x200 + offset) % 512 = offset := by omega
  simp only [decodeWords, unpack, hdir, hoffset, decode]

theorem writeRow_offset_lt {row : Nat × (Nat → Nat → Instr)} (h : row ∈ writeRows) : row.1 < 512 := by
  have all : ∀ offset ∈ writeRows.map Prod.fst, offset < 512 := by decide
  exact all _ (List.mem_map_of_mem h)

theorem decodeWords_of_writeRow {offset : Nat} {op : Nat → Nat → Instr} (hop : tableAt writeRows offset = some op)
    (ops : List Nat) : decodeWords (0x200 + offset) ops = .ok (op (operand ops 0) (operand ops 1)) := by
  have hoffset : offset < 512 := writeRow_offset_lt (mem_of_tableAt_eq_some hop)
  rw [decodeWords_busWrite hoffset, decodeWrite, hop]

/-- A row at a writable offset is the writable branch of the common path (R210). -/
theorem exec_writeRow_of_writable {offset : Nat} {op : Nat → Nat → Instr} {reg : Reg}
    (hop : tableAt writeRows offset = some op) (hreg : writable offset = some reg) (width value : Nat) (s : State) :
    exec (op width value) s = .next (writeReg reg width value s) := by
  rw [exec_writeRow (mem_of_tableAt_eq_some hop) width value s, busWritePath_eq_elim offset width, hreg, Option.elim_some]

/-- Everything the writable branch of a bus write can do: its derive pass, then its push (R210). -/
theorem writeReg_effect (reg : Reg) (width value : Nat) (s : State) :
    WriteEffect reg value s (writeReg reg width value s) := by
  refine ⟨_, _, rfl, deriveRegs_effect _ _, ?_⟩
  rw [writeReg_eq_push]
  exact push_effect _

theorem writeRow_of_writable (offset : Nat) {op : Nat → Nat → Instr} (reg : Reg)
    (hop : tableAt writeRows offset = some op) (hreg : writable offset = some reg) : WriteRow (0x200 + offset) op reg :=
  ⟨decodeWords_of_writeRow hop, fun width value s =>
    ⟨writeReg reg width value s, exec_writeRow_of_writable hop hreg width value s, writeReg_effect reg width value s⟩⟩

/-! A write of a storage-only register. -/

/-- The registers that are storage only: EDS, the detect enables, PUD and PUDCLK (R39). -/
def Reg.isStorageOnly : Reg → Bool
  | .fsel _ | .gpset _ | .gpclr _ | .level _ => false
  | _ => true

/-- A write of a storage-only register leaves everything the derive pass reads to find its requests (R39, R150). -/
theorem RegFile.write_storageOnly (f : RegFile) {reg : Reg} (v : Word) (h : reg.isStorageOnly = true) :
    (f.write reg v).fsel = f.fsel ∧ (f.write reg v).gpset = f.gpset ∧ (f.write reg v).gpclr = f.gpclr := by
  cases reg with
  | fsel _ | gpset _ | gpclr _ | level _ => cases h
  | _ => exact ⟨rfl, rfl, rfl⟩

theorem OneShotsConsumed.congr {f g : RegFile} (h : OneShotsConsumed f) (hfsel : g.fsel = f.fsel)
    (hset : g.gpset = f.gpset) (hclr : g.gpclr = f.gpclr) : OneShotsConsumed g := by
  intro p hout
  rw [hfsel] at hout
  rw [hset, hclr]
  exact h p hout

/-- A write of a storage-only register gives the derive pass nothing to do where it had nothing to do before (R39, R156). -/
theorem writeReg_regs_of_storageOnly {reg : Reg} (hreg : reg.isStorageOnly = true) (width value : Nat) {s : State}
    (h : OneShotsConsumed s.regs) :
    (writeReg reg width value s).regs =
      RegFile.write { s.regs with wcount := s.regs.wcount + 1 } reg (trunc32 value) := by
  obtain ⟨hfsel, hset, hclr⟩ :=
    RegFile.write_storageOnly { s.regs with wcount := s.regs.wcount + 1 } (trunc32 value) hreg
  rw [writeReg_regs]
  exact deriveRegs_of_consumed _ (h.congr hfsel hset hclr)

theorem storageWriteRow_of_writable (offset : Nat) {op : Nat → Nat → Instr} (reg : Reg) (hstorage : reg.isStorageOnly = true)
    (hop : tableAt writeRows offset = some op) (hreg : writable offset = some reg) :
    StorageWriteRow (0x200 + offset) op reg :=
  ⟨writeRow_of_writable offset reg hop hreg, fun width value s =>
    ⟨writeReg reg width value s, exec_writeRow_of_writable hop hreg width value s,
      writeReg_regs_of_storageOnly hstorage width value⟩⟩

/-! The rows. Each names its offset and its register; the decode table and the register map are looked up at that offset. -/

/-- Settles O36: `FSEL[0]` to `FSEL[5]` stand at 0x00 to 0x14 (R211 to R216). -/
theorem functionSelectWrites : Obligations.FunctionSelectWrites := by
  unfold Obligations.FunctionSelectWrites
  exact
    ⟨writeRow_of_writable 0x00 (.fsel 0) rfl rfl, writeRow_of_writable 0x04 (.fsel 1) rfl rfl,
      writeRow_of_writable 0x08 (.fsel 2) rfl rfl, writeRow_of_writable 0x0c (.fsel 3) rfl rfl,
      writeRow_of_writable 0x10 (.fsel 4) rfl rfl, writeRow_of_writable 0x14 (.fsel 5) rfl rfl⟩

/-- Settles O38: two rows for each of EDS, REN, FEN, HEN, LEN and AREN (R221 to R232). -/
theorem detectRegisterWrites : Obligations.DetectRegisterWrites := by
  unfold Obligations.DetectRegisterWrites
  exact
    ⟨storageWriteRow_of_writable 0x40 (.eds 0) rfl rfl rfl, storageWriteRow_of_writable 0x44 (.eds 1) rfl rfl rfl,
      storageWriteRow_of_writable 0x4c (.ren 0) rfl rfl rfl, storageWriteRow_of_writable 0x50 (.ren 1) rfl rfl rfl,
      storageWriteRow_of_writable 0x58 (.fen 0) rfl rfl rfl, storageWriteRow_of_writable 0x5c (.fen 1) rfl rfl rfl,
      storageWriteRow_of_writable 0x64 (.hen 0) rfl rfl rfl, storageWriteRow_of_writable 0x68 (.hen 1) rfl rfl rfl,
      storageWriteRow_of_writable 0x70 (.len 0) rfl rfl rfl, storageWriteRow_of_writable 0x74 (.len 1) rfl rfl rfl,
      storageWriteRow_of_writable 0x7c (.aren 0) rfl rfl rfl, storageWriteRow_of_writable 0x80 (.aren 1) rfl rfl rfl⟩

/-- Settles O39: two rows of AFEN, one of PUD and two of PUDCLK (R233 to R237). -/
theorem pullControlWrites : Obligations.PullControlWrites := by
  unfold Obligations.PullControlWrites
  exact
    ⟨storageWriteRow_of_writable 0x88 (.afen 0) rfl rfl rfl, storageWriteRow_of_writable 0x8c (.afen 1) rfl rfl rfl,
      storageWriteRow_of_writable 0x94 .pud rfl rfl rfl, storageWriteRow_of_writable 0x98 (.pudclk 0) rfl rfl rfl,
      storageWriteRow_of_writable 0x9c (.pudclk 1) rfl rfl rfl⟩

end Sys2Proof.Machine
end

section
/-! The external line interface (45_external_lines_and_control.md): what a line event decodes to and what its selector is, and the operation by
the function of its pin (R261). -/

namespace Sys2Proof.Machine

/-! Decode. -/

/-- The pin of a line event that is in range is kept, its level normalised (R129). -/
theorem decode_line (p : Pin) (level : Int) : decode (.line p.val level) = .ok (.line p (decide (level ≠ 0))) :=
  dif_pos p.isLt

theorem decode_line_of_le {pin : Nat} (h : 54 ≤ pin) (level : Int) :
    decode (.line pin level) = .error (.pinOutOfRange pin) :=
  dif_neg (Nat.not_lt.mpr h)

/-- The step on an event that the decoder rejects is the refusal that answers the rejection (R278). -/
theorem step_of_decode_error {s : State} {e : Event} {rest : List Input} {err : DecodeError}
    (hs : s.pending = .op e :: rest) (h : decode e = .error err) : step s = .refused (refusalOf err) := by
  simp only [step, hs, h]

/-- Settles O6: the decoder's two branches, the second answered by the step as a refusal of the same name (R129, R262). -/
theorem lineEventsAreNormalisedOrRefused : Obligations.LineEventsAreNormalisedOrRefused := by
  unfold Obligations.LineEventsAreNormalisedOrRefused
  exact ⟨decode_line, fun _ _ level _ hs h => step_of_decode_error hs (decode_line_of_le h level)⟩

/-! The selector. -/

/-- The three fields of format LN do not overlap, so the `|` of R115 is the sum in `lineSelector`. -/
theorem or_fields_eq_lineSelector (p : Pin) (level : Bool) :
    0x400 ||| (level.toNat <<< 6) ||| p.val = lineSelector p level := by
  have hpin : p.val < 2 ^ 6 := by omega
  have hlevel : level.toNat < 2 := level.toNat_lt
  calc 0x400 ||| (level.toNat <<< 6) ||| p.val
      = 0x400 ||| (level.toNat <<< 6 + p.val) := by rw [Nat.or_assoc, Nat.shiftLeft_add_eq_or_of_lt hpin]
    _ = 0x400 + (level.toNat <<< 6 + p.val) := by
      rw [Nat.shiftLeft_eq]
      exact (Nat.two_pow_add_eq_or_of_lt (i := 10) (by omega) 1).symm
    _ = lineSelector p level := by
      rw [Nat.shiftLeft_eq, lineSelector]
      omega

/-- The selector of a line event unpacks to that pin and to the level as 0 or 1 (R115, R261). -/
theorem unpack_lineSelector (p : Pin) (level : Bool) (ops : List Nat) :
    unpack (lineSelector p level) ops = .line p.val (level.toNat : Int) := by
  have hlevel : level.toNat < 2 := level.toNat_lt
  have hkind : lineSelector p level / 512 = 2 := by unfold lineSelector; omega
  have hzero : lineSelector p level % 512 < 128 := by unfold lineSelector; omega
  have hbit : lineSelector p level / 64 % 2 = level.toNat := by unfold lineSelector; omega
  have hpin : lineSelector p level % 64 = p.val := by unfold lineSelector; omega
  simp only [unpack, hkind, if_pos hzero, hbit, hpin]

theorem decodeWords_lineSelector (p : Pin) (level : Bool) (ops : List Nat) :
    decodeWords (lineSelector p level) ops = .ok (.line p level) := by
  have hlevel : decide ((level.toNat : Int) ≠ 0) = level := by cases level <;> rfl
  rw [decodeWords, unpack_lineSelector, decode_line, hlevel]

/-! The operation. -/

theorem isInput_iff {f : FselRegs} {p : Pin} : isInput f p = true ↔ fnCode f p = 0 := beq_iff_eq

theorem exec_line (p : Pin) (level : Bool) (s : State) : exec (.line p level) s = execLine p level s := rfl

theorem exec_line_of_input {p : Pin} {s : State} (h : fnCode s.regs.fsel p = 0) (level : Bool) :
    exec (.line p level) s =
      .next { s with regs := { s.regs with level := Bank.setBit s.regs.level p level }, result := .nothing } := by
  rw [exec_line, execLine, if_pos (isInput_iff.mpr h)]
  rfl

/-- A line event of a pin that is not Input leaves nothing behind (R47, R261). -/
theorem exec_line_of_not_input {p : Pin} {s : State} (h : fnCode s.regs.fsel p ≠ 0) (level : Bool) :
    exec (.line p level) s = .next { s with result := .nothing } := by
  rw [exec_line, execLine, if_neg (mt isInput_iff.mp h)]
  rfl

/-- Settles O42, by the function of the pin: an Input pin's event is one bit write in LEVEL, any other pin's delivers nothing and does nothing
(R261, R263). -/
theorem lineSetsAnInputLevel : Obligations.LineSetsAnInputLevel := by
  unfold Obligations.LineSetsAnInputLevel
  intro p level s
  refine ⟨or_fields_eq_lineSelector p level ▸ decodeWords_lineSelector p level [], ?_⟩
  by_cases hin : fnCode s.regs.fsel p = 0
  case pos =>
    exact ⟨_, exec_line_of_input hin level, rfl, fun hne => absurd hin hne,
      fun _ => Bank.getLsbD_setBit s.regs.level p level⟩
  case neg =>
    exact ⟨_, exec_line_of_not_input hin level, rfl, fun _ => rfl, fun heq => absurd heq hin⟩

end Sys2Proof.Machine
end

section
/-! The control events (70_reset_and_hazards.md): the register file after a reset, the record that a created segment holds, and the three
statements about RESET, INIT and SNAPSAVE. -/

namespace Sys2Proof.Machine

/-! RESET. -/

theorem exec_reset (s : State) : exec .reset s = .next { s with regs := RegFile.zero, result := .nothing } := rfl

@[simp] theorem Bank.get_zero (r : Fin 2) : Bank.get .zero r = 0 := by
  match r with
  | 0 | 1 => rfl

@[simp] theorem FselRegs.get_zero (n : Fin 6) : FselRegs.get .zero n = 0 := by
  match n with
  | 0 | 1 | 2 | 3 | 4 | 5 => rfl

/-- Every bus-addressable register reads 0 after a reset (R48). -/
theorem RegFile.read_zero (reg : Reg) : RegFile.read .zero reg = 0 := by
  cases reg with
  | fsel n => exact FselRegs.get_zero n
  | pud => rfl
  | gpset r | gpclr r | level r | eds r | ren r | fen r | hen r | len r | aren r | afen r | pudclk r => exact Bank.get_zero r

/-- Every pin is Input after a reset (R48, R140). -/
theorem fnCode_zero (p : Pin) : fnCode .zero p = 0 := by
  simp [fnCode]

/-- Settles O44: the register file is the zero one, in which every register, OUTSTATE included, reads 0 and every field is the Input code. -/
theorem resetZeroesTheRegisterFile : Obligations.ResetZeroesTheRegisterFile := by
  unfold Obligations.ResetZeroesTheRegisterFile
  exact ⟨fun s => ⟨_, exec_reset s, RegFile.read_zero, Bank.get_zero, rfl, fnCode_zero, rfl⟩, RegFile.read_zero, rfl, rfl⟩

/-! The record that a created segment holds: each of its ten fields was stored once, and no later store touches it (R76). -/

/-- The fields of the record, in its order (R76). -/
def recordFields : List ShmField :=
  [.fsel 0, .fsel 1, .fsel 2, .fsel 3, .fsel 4, .fsel 5, .level 0, .level 1, .outstate 0, .outstate 1]

theorem mem_recordFields (f : ShmField) : f ∈ recordFields := by
  match f with
  | .fsel 0 | .fsel 1 | .fsel 2 | .fsel 3 | .fsel 4 | .fsel 5 => decide
  | .level 0 | .level 1 => decide
  | .outstate 0 | .outstate 1 => decide

/-- The word of `SHM_INIT` for a field (R76). -/
def initialWord (m : ShmWords) : ShmField → Word
  | .fsel n => FselRegs.get m.fsel n
  | .level r => Bank.get m.level r
  | .outstate r => Bank.get m.outstate r

/-- The memory with some fields stored, the first of the list last. -/
def storeWords (e : Config.Endian) (m : ShmWords) (fields : List ShmField) : Memory :=
  fields.foldr (fun f mem => Memory.writeWord mem e f.addr (initialWord m f)) []

theorem memoryOf_eq_storeWords (e : Config.Endian) (m : ShmWords) : memoryOf e m = storeWords e m recordFields := rfl

/-- Each stored field reads back as its word: a store to another field does not overlap it (R76, R97). -/
theorem readWord_storeWords (e : Config.Endian) (m : ShmWords) {fields : List ShmField} {f : ShmField} (hf : f ∈ fields) :
    Memory.readWord (storeWords e m fields) e f.addr = initialWord m f := by
  induction fields with
  | nil => exact absurd hf List.not_mem_nil
  | cons g rest ih =>
    rw [storeWords, List.foldr_cons]
    by_cases hg : f = g
    case pos =>
      rw [hg]
      exact Memory.readWord_writeWord_same _ e _ _
    case neg =>
      rw [Memory.readWord_writeWord_of_apart _ e _ _ _ (ShmField.apart_of_ne hg)]
      exact ih ((List.mem_cons.mp hf).resolve_left hg)

/-- A created segment holds `SHM_INIT` (R301). -/
theorem readWord_memoryOf (e : Config.Endian) (m : ShmWords) (f : ShmField) :
    Memory.readWord (memoryOf e m) e f.addr = initialWord m f := by
  rw [memoryOf_eq_storeWords]
  exact readWord_storeWords e m (mem_recordFields f)

/-! INIT. -/

theorem exec_init (attach : Attach) (s : State) : exec (.init attach) s = execInit attach s := rfl

theorem exec_init_of_not_inited {s : State} (h : s.inited = false) (attach : Attach) :
    exec (.init attach) s =
      .next (({ s with inited := true, regs := createdRegs s.draws, draws := s.draws + 1 }.attach attach).deliver .nothing) := by
  rw [exec_init, execInit, h, if_neg Bool.false_ne_true]

theorem exec_init_of_inited {s : State} (h : s.inited = true) (attach : Attach) :
    exec (.init attach) s = .refused .secondInit := by
  rw [exec_init, execInit, if_pos h]

/-- Settles O45, by the answer of the attach: a found segment leaves the record, a created one is read back field by field
(`readWord_memoryOf`), a failed one is one record (R301). -/
theorem initAttachesTheRecord : Obligations.InitAttachesTheRecord := by
  unfold Obligations.InitAttachesTheRecord
  refine ⟨fun s hs => ⟨?found, fun words => ?created, ?failed⟩, fun s attach hs => exec_init_of_inited hs attach⟩
  case found => exact ⟨_, exec_init_of_not_inited hs .found, rfl⟩
  case created =>
    have hread := readWord_memoryOf s.params.shmEndian words
    exact ⟨_, exec_init_of_not_inited hs (.created words), rfl, fun n => hread (.fsel n), fun r => hread (.level r),
      fun r => hread (.outstate r)⟩
  case failed => exact ⟨_, exec_init_of_not_inited hs .failed, rfl⟩

/-! SNAPSAVE. -/

theorem decodeWords_snapsave (ops : List Nat) : decodeWords 0x602 ops = .ok .snapsave := rfl

theorem exec_snapsave (s : State) : exec .snapsave s = .next { s with result := .snapshot (snapOf s.regs) } := rfl

/-- The 29 registers in the order in which R50 lists them. -/
def snapRegs : List Reg :=
  [.fsel 0, .fsel 1, .fsel 2, .fsel 3, .fsel 4, .fsel 5, .gpset 0, .gpset 1, .gpclr 0, .gpclr 1, .level 0, .level 1,
   .eds 0, .eds 1, .ren 0, .ren 1, .fen 0, .fen 1, .hen 0, .hen 1, .len 0, .len 1, .aren 0, .aren 1, .afen 0, .afen 1,
   .pud, .pudclk 0, .pudclk 1]

/-- The words of a snapshot are the registers as they stand (R50, R310). -/
theorem wordsOfSnap_snapOf (f : RegFile) : wordsOfSnap (snapOf f) = snapRegs.map (RegFile.read f) := rfl

/-- Settles O46: what is delivered is the snapshot of the register file, and its words are the registers' in R50's order. -/
theorem snapSaveDeliversTheRegisters : Obligations.SnapSaveDeliversTheRegisters := by
  unfold Obligations.SnapSaveDeliversTheRegisters
  exact ⟨decodeWords_snapsave, fun s => ⟨snapOf s.regs, exec_snapsave s, wordsOfSnap_snapOf s.regs⟩⟩

end Sys2Proof.Machine
end

section
/-! Encoding and decoding (30_encoding.md): the decoder reads back what the encoder writes, and `eventOf` gives a decoded bus transaction
back, so that no two of them meet in one operation (R110 to R117). -/

namespace Sys2Proof.Machine

/-! Bus transactions at an offset that no row lists, and what the decoder answers for every offset. -/

theorem decodeRead_of_unlisted {offset : Nat} (hlisted : offset ∉ listedOffsets) (hwindow : offset < Config.MMIO_WINDOW)
    (width : Nat) : decodeRead offset width = .rdBad offset width := by
  simp only [decodeRead, tableAt_readRows hlisted, if_pos hwindow]

theorem decodeWrite_of_unlisted {offset : Nat} (hlisted : offset ∉ listedOffsets) (hwindow : offset < Config.MMIO_WINDOW)
    (width value : Nat) : decodeWrite offset width value = .wrBad offset width value := by
  simp only [decodeWrite, tableAt_writeRows hlisted, if_pos hwindow]

/-- What a bus read decodes to: a row of the table, or one of the two catch-all rows (R117, R196, R202). -/
theorem decodeRead_cases (offset width : Nat) :
    (∃ row ∈ readRows, row.1 = offset ∧ decodeRead offset width = row.2 width) ∨
    (offset < Config.MMIO_WINDOW ∧ offset ∉ listedOffsets ∧ decodeRead offset width = .rdBad offset width) ∨
    (Config.MMIO_WINDOW ≤ offset ∧ decodeRead offset width = .rdUndef offset width) := by
  cases h : tableAt readRows offset with
  | some op => exact .inl ⟨_, mem_of_tableAt_eq_some h, rfl, by simp only [decodeRead, h]⟩
  | none =>
    have hlisted := not_listed_of_tableAt_readRows h
    rcases Nat.lt_or_ge offset Config.MMIO_WINDOW with hin | hout
    · exact .inr (.inl ⟨hin, hlisted, decodeRead_of_unlisted hlisted hin width⟩)
    · exact .inr (.inr ⟨hout, decodeRead_of_window_le hout width⟩)

/-- What a bus write decodes to, in the same way (R117, R247, R251). -/
theorem decodeWrite_cases (offset width value : Nat) :
    (∃ row ∈ writeRows, row.1 = offset ∧ decodeWrite offset width value = row.2 width value) ∨
    (offset < Config.MMIO_WINDOW ∧ offset ∉ listedOffsets ∧ decodeWrite offset width value = .wrBad offset width value) ∨
    (Config.MMIO_WINDOW ≤ offset ∧ decodeWrite offset width value = .wrUndef offset width value) := by
  cases h : tableAt writeRows offset with
  | some op => exact .inl ⟨_, mem_of_tableAt_eq_some h, rfl, by simp only [decodeWrite, h]⟩
  | none =>
    have hlisted := not_listed_of_tableAt_writeRows h
    rcases Nat.lt_or_ge offset Config.MMIO_WINDOW with hin | hout
    · exact .inr (.inl ⟨hin, hlisted, decodeWrite_of_unlisted hlisted hin width value⟩)
    · exact .inr (.inr ⟨hout, decodeWrite_of_window_le hout width value⟩)

/-! The operand words of INIT and SNAPLOAD. -/

theorem operandWord_map_toNat (words : List Word) (k : Nat) :
    operandWord (words.map BitVec.toNat) k = words.getD k 0 := by
  have hword : operand (words.map BitVec.toNat) k = (words.getD k 0).toNat := by
    rw [operand, ← List.getD_map (f := BitVec.toNat)]
    rfl
  rw [operandWord, hword, BitVec.ofNat_toNat, BitVec.setWidth_eq]

/-- A list is its elements in order, read one by one. -/
theorem range_map_getD (words : List Word) : (List.range words.length).map (fun k => words.getD k 0) = words := by
  refine List.ext_getElem (by simp) fun k hk hk' => ?_
  simp only [List.getElem_map, List.getElem_range, List.getD_eq_getElem _ _ hk']

/-- Any 29 words are a snapshot, and its words are those (R50, R311). -/
theorem snapOfWords_of_length {words : List Word} (h : words.length = 29) :
    ∃ x, snapOfWords words = some x ∧ wordsOfSnap x = words := by
  have hread : ∀ word : Nat → Word, ∃ x, snapOfWords ((List.range 29).map word) = some x ∧
      wordsOfSnap x = (List.range 29).map word := fun word => ⟨_, rfl, rfl⟩
  have hwords := range_map_getD words
  rw [h] at hwords
  rw [← hwords]
  exact hread _

theorem snapOfWords_wordsOfSnap (x : SnapFields) : snapOfWords (wordsOfSnap x) = some x := rfl

theorem shmWordsOf_wordsOfShm (m : ShmWords) : shmWordsOf (1 :: wordsOfShm m) = m := by
  simp [shmWordsOf, wordsOfShm, operandWord, operand]

/-- The operand words of INIT name the environment's answer back (R301; notes/assumptions/9.md). -/
theorem attachOf_attachWords (attach : Attach) : attachOf (attachWords attach) = some attach := by
  cases attach with
  | found => rfl
  | created contents => exact congrArg (fun m => some (Attach.created m)) (shmWordsOf_wordsOfShm contents)
  | failed => rfl

theorem decodeWords_init (attach : Attach) : decodeWords 0x601 (attachWords attach) = .ok (.init attach) := by
  have hevent : unpackControl 0x601 (attachWords attach) = .init attach := by
    simp [unpackControl, attachOf_attachWords]
  exact congrArg decode hevent

theorem decodeWords_snapload (fields : SnapFields) :
    decodeWords 0x603 ((wordsOfSnap fields).map BitVec.toNat) = .ok (.snapload fields) := by
  have hwords : (List.range 29).map (operandWord ((wordsOfSnap fields).map BitVec.toNat)) = wordsOfSnap fields := by
    rw [funext (operandWord_map_toNat (wordsOfSnap fields))]
    exact range_map_getD (wordsOfSnap fields)
  change decodeSnapLoad ((List.range 29).map (operandWord ((wordsOfSnap fields).map BitVec.toNat))) = _
  rw [hwords, decodeSnapLoad, snapOfWords_wordsOfSnap]

/-! Every operation. -/

/-- The decoder reads back the words of every well-formed operation that has a selector (R112 to R117). The rows with a literal selector are
looked up at it; the others carry an operand in the selector or in their words. -/
theorem decodeWords_of_encode {i : Instr} (hwf : WellFormed i = true) {sel : Nat} {ops : List Nat}
    (h : encode i = some (sel, ops)) : decodeWords sel ops = .ok i := by
  cases i with
  | rdBad offset width =>
    obtain ⟨hwindow, hlisted⟩ : offset < Config.MMIO_WINDOW ∧ offset ∉ listedOffsets := by simpa [WellFormed] using hwf
    cases h
    rw [decodeWords_busRead (Nat.lt_trans hwindow (by decide)), decodeRead_of_unlisted hlisted hwindow]
    rfl
  | wrBad offset width value =>
    obtain ⟨hwindow, hlisted⟩ : offset < Config.MMIO_WINDOW ∧ offset ∉ listedOffsets := by simpa [WellFormed] using hwf
    cases h
    rw [decodeWords_busWrite (Nat.lt_trans hwindow (by decide)), decodeWrite_of_unlisted hlisted hwindow]
    rfl
  | line p level => cases h; exact decodeWords_lineSelector p level []
  | init attach => cases h; exact decodeWords_init attach
  | snapload fields => cases h; exact decodeWords_snapload fields
  | rdUndef _ _ | wrUndef _ _ _ | fn _ | derive | push | pull => cases h
  | _ => cases h; rfl

/-- Settles O1: `decodeWords_of_encode`. -/
theorem decodeOfEncode : Obligations.DecodeOfEncode := by
  unfold Obligations.DecodeOfEncode
  exact fun _ hwf _ _ h => decodeWords_of_encode hwf h

/-- Settles O2: an operation with a selector is decoded from its own words, and the two bus rows without one from their offset (R110). -/
theorem everyOperationHasItsEvent : Obligations.EveryOperationHasItsEvent := by
  unfold Obligations.EveryOperationHasItsEvent
  intro i hwf hsel
  cases henc : encode i with
  | some words =>
    obtain ⟨sel, ops⟩ := words
    exact ⟨unpack sel ops, by simp only [eventOf, henc], decodeWords_of_encode hwf henc⟩
  | none =>
    cases i with
    | rdUndef offset width =>
      exact ⟨_, rfl, congrArg Except.ok (decodeRead_of_window_le (of_decide_eq_true hwf) width)⟩
    | wrUndef offset width value =>
      exact ⟨_, rfl, congrArg Except.ok (decodeWrite_of_window_le (of_decide_eq_true hwf) width value)⟩
    | fn _ | derive | push | pull => cases hsel
    | _ => cases henc

/-! What the decoder answers. -/

theorem wellFormed_decodeRead (offset width : Nat) :
    WellFormed (decodeRead offset width) = true ∧ Selectable (decodeRead offset width) = true := by
  rcases decodeRead_cases offset width with ⟨row, hrow, -, hdec⟩ | ⟨hwindow, hlisted, hdec⟩ | ⟨hwindow, hdec⟩ <;> rw [hdec]
  · fin_cases hrow <;> exact ⟨rfl, rfl⟩
  · exact ⟨by simp [WellFormed, hwindow, hlisted], rfl⟩
  · exact ⟨decide_eq_true hwindow, rfl⟩

theorem wellFormed_decodeWrite (offset width value : Nat) :
    WellFormed (decodeWrite offset width value) = true ∧ Selectable (decodeWrite offset width value) = true := by
  rcases decodeWrite_cases offset width value with ⟨row, hrow, -, hdec⟩ | ⟨hwindow, hlisted, hdec⟩ | ⟨hwindow, hdec⟩ <;> rw [hdec]
  · fin_cases hrow <;> exact ⟨rfl, rfl⟩
  · exact ⟨by simp [WellFormed, hwindow, hlisted], rfl⟩
  · exact ⟨decide_eq_true hwindow, rfl⟩

/-- A line event or a snapshot that decodes gives the operation of that name (R262, R311). -/
theorem decodeLine_eq_ok {pin : Nat} {level : Int} {i : Instr} (h : decodeLine pin level = .ok i) :
    ∃ p : Pin, i = .line p (decide (level ≠ 0)) := by
  unfold decodeLine at h
  split at h
  · next hpin => exact ⟨⟨pin, hpin⟩, (Except.ok.inj h).symm⟩
  · cases h

theorem decodeSnapLoad_eq_ok {words : List Word} {i : Instr} (h : decodeSnapLoad words = .ok i) :
    ∃ fields, i = .snapload fields := by
  unfold decodeSnapLoad at h
  split at h
  · next fields _ => exact ⟨fields, (Except.ok.inj h).symm⟩
  · cases h

/-- Settles O3, by the kind of event. -/
theorem decodedOperationsAreWellFormed : Obligations.DecodedOperationsAreWellFormed := by
  unfold Obligations.DecodedOperationsAreWellFormed
  intro e i h
  cases e with
  | busRead offset width => cases h; exact wellFormed_decodeRead offset width
  | busWrite offset width value => cases h; exact wellFormed_decodeWrite offset width value
  | line pin level => obtain ⟨p, rfl⟩ := decodeLine_eq_ok h; exact ⟨rfl, rfl⟩
  | snapLoad words => obtain ⟨fields, rfl⟩ := decodeSnapLoad_eq_ok h; exact ⟨rfl, rfl⟩
  | reset | init _ | snapSave => cases h; exact ⟨rfl, rfl⟩
  | unlisted sel => cases h

/-! No two bus transactions in one operation: `eventOf` gives the transaction back. -/

theorem eventOf_decodeRead (offset width : Nat) : eventOf (decodeRead offset width) = some (.busRead offset width) := by
  rcases decodeRead_cases offset width with ⟨row, hrow, rfl, hdec⟩ | ⟨hwindow, -, hdec⟩ | ⟨-, hdec⟩ <;> rw [hdec]
  · fin_cases hrow <;> rfl
  · have hsel : offset < 512 := Nat.lt_trans hwindow (by decide)
    simp only [eventOf, encode, unpack, Nat.div_eq_of_lt hsel, Nat.mod_eq_of_lt hsel]
    rfl
  · rfl

theorem eventOf_decodeWrite (offset width value : Nat) :
    eventOf (decodeWrite offset width value) = some (.busWrite offset width value) := by
  rcases decodeWrite_cases offset width value with ⟨row, hrow, rfl, hdec⟩ | ⟨hwindow, -, hdec⟩ | ⟨-, hdec⟩ <;> rw [hdec]
  · fin_cases hrow <;> rfl
  · have hoffset : offset < 512 := Nat.lt_trans hwindow (by decide)
    have hdir : (0x200 + offset) / 512 = 1 := by omega
    have hlow : (0x200 + offset) % 512 = offset := by omega
    simp only [eventOf, encode, unpack, hdir, hlow]
    rfl
  · rfl

/-- Settles O4: the event of the operation is the transaction, so equal operations come from equal transactions (R117). -/
theorem busDecodeIsByExactOffset : Obligations.BusDecodeIsByExactOffset := by
  unfold Obligations.BusDecodeIsByExactOffset
  refine ⟨fun offset width offset' width' h => ?reads, fun offset width value offset' width' value' h => ?writes,
    fun offset width offset' width' value h => ?apart⟩
  case reads =>
    have he := congrArg eventOf (Except.ok.inj h)
    rw [eventOf_decodeRead, eventOf_decodeRead] at he
    exact Event.busRead.inj (Option.some.inj he)
  case writes =>
    have he := congrArg eventOf (Except.ok.inj h)
    rw [eventOf_decodeWrite, eventOf_decodeWrite] at he
    exact Event.busWrite.inj (Option.some.inj he)
  case apart =>
    have he := congrArg eventOf (Except.ok.inj h)
    rw [eventOf_decodeRead, eventOf_decodeWrite] at he
    exact Event.noConfusion (Option.some.inj he)

/-! Written-out selectors, and selectors of no format. -/

/-- Settles O5: two rows of each table, a catch-all row, a line event and two control events at their literal selectors. -/
theorem writtenOutSelectorsDecode : Obligations.WrittenOutSelectorsDecode := by
  unfold Obligations.WrittenOutSelectorsDecode
  exact ⟨decodeWords_of_readRow (sel := 0x34) rfl [4], decodeWords_of_writeRow (offset := 0x1c) rfl [4, 0x20],
    decodeWords_of_encode (i := .rdBad 0x35 1) rfl rfl, decodeWords_of_writeRow (offset := 0x30) rfl [8, 7],
    decodeWords_lineSelector 53 true [], rfl, decodeWords_snapsave []⟩

/-- A selector of kind line with `sel[8:7]` not 0, of kind control with `sel[8:2]` not 0, or of more than 11 bits has no format (R112, R115, R116). -/
theorem unpack_of_no_format {sel : Nat} (ops : List Nat)
    (h : (sel / 512 = 2 ∧ 128 ≤ sel % 512) ∨ (sel / 512 = 3 ∧ 4 ≤ sel % 512) ∨ 2048 ≤ sel) : unpack sel ops = .unlisted sel := by
  rcases h with ⟨hkind, hlow⟩ | ⟨hkind, hlow⟩ | hwide
  · simp only [unpack, hkind, if_neg (Nat.not_lt.mpr hlow)]
  · simp only [unpack, hkind, unpackControl]
    split <;> [omega; omega; omega; omega; rfl]
  · unfold unpack
    split <;> [omega; omega; omega; omega; rfl]

/-- Settles O7: a number of no format is none of the events, and an offset with bit 8 set stands at or above the window. -/
theorem selectorsOfNoFormatAreRefused : Obligations.SelectorsOfNoFormatAreRefused := by
  unfold Obligations.SelectorsOfNoFormatAreRefused
  refine ⟨fun sel ops h => ?none, fun offset ops hle hlt => ?read, fun offset ops hle hlt => ?write⟩
  case none => rw [decodeWords, unpack_of_no_format ops h, decode]
  case read => rw [decodeWords_busRead hlt, decodeRead_of_window_le hle]
  case write => rw [decodeWords_busWrite hlt, decodeWrite_of_window_le hle]

end Sys2Proof.Machine
end

section
/-! The step (00_scope.md R13, 10_state.md R22) and the shared record (20_memory.md R76, R77, R92): what a step can be, said once, and what one
store of a word does to every byte. -/

namespace Sys2Proof.Machine

/-! The step. -/

theorem step_of_idle {s : State} (h : s.pending = []) : step s = .next s := by
  simp only [step, h]

theorem step_of_ext {s : State} {a : ExtAccess} {rest : List Input} (h : s.pending = .ext a :: rest) :
    step s = .next ((s.withPending rest).extAccess a) := by
  simp only [step, h]

theorem step_of_op {s : State} {e : Event} {rest : List Input} {i : Instr} (h : s.pending = .op e :: rest)
    (hdec : decode e = .ok i) : step s = exec i (s.withPending rest) := by
  simp only [step, h, hdec]

theorem before_pending (s : State) (e : Event) : (s.before e).pending = s.pending := by
  cases e <;> rfl

theorem decode_of_decodeTableWord {nbits w : Nat} {i : Instr} (h : decodeTableWord nbits w = some i) :
    decode (eventOfBits w) = .ok i := by
  unfold decodeTableWord at h
  split at h
  · next hdec => rw [hdec, Option.some.inj h]
  · cases h

/-- Settles O11: the event is the next input, and the step on it is the operation it decodes to. -/
theorem stepRunsTheDecodedOperation : Obligations.StepRunsTheDecodedOperation := by
  unfold Obligations.StepRunsTheDecodedOperation
  refine ⟨fun s e rest i hs hdec => step_of_op hs hdec, fun s nbits w i h => ?_⟩
  rw [← step_of_decode (decode_of_decodeTableWord h), before_pending]
  rfl

/-! One store of a word, byte by byte. -/

/-- Byte `k` of a stored word, counted from its first address, in the byte order of the host (R77). -/
def storedByte (e : Config.Endian) (v : Word) (k : Nat) : Byte :=
  match e with
  | .little => byteOf v k
  | .big => byteOf v (3 - k)

theorem Memory.get_writeWord_inside (m : Memory) (e : Config.Endian) (a : Nat) (v : Word) {k : Nat} (hk : k < 4) :
    Memory.get (Memory.writeWord m e a v) (a + k) = storedByte e v k := by
  interval_cases k <;> cases e <;> simp [Memory.writeWord, Memory.get_setFour, storedByte]

theorem State.get_shmWrite_of_outside (s : State) (f : ShmField) (v : Word) {a : Nat} (h : a < f.addr ∨ f.addr + 4 ≤ a) :
    Memory.get (s.shmWrite f v).shm a = Memory.get s.shm a :=
  Memory.get_writeWord_of_outside _ _ _ _ _ h

/-- Settles O12: the idle step, the store by its word and its bytes, and the load (R22, R92). -/
theorem idleAndExternalSteps : Obligations.IdleAndExternalSteps := by
  unfold Obligations.IdleAndExternalSteps
  refine ⟨fun s => step_of_idle, fun s f v rest hs => ?store, fun s f rest hs => step_of_ext hs⟩
  case store =>
    have hread := State.shmRead_shmWrite (s.withPending rest) f
    exact ⟨_, step_of_ext hs, fun g => hread g v, fun a ha => State.get_shmWrite_of_outside _ f v ha, rfl⟩

/-- Settles O13: the word by `shmRead_shmWrite`, its four bytes by `get_writeWord_inside`, the others unchanged (R76, R77). -/
theorem sharedFieldsAreFourBytesInHostOrder : Obligations.SharedFieldsAreFourBytesInHostOrder := by
  unfold Obligations.SharedFieldsAreFourBytesInHostOrder
  intro s f v
  refine ⟨fun g => State.shmRead_shmWrite s f g v, fun k hk => ?inside, fun a ha => State.get_shmWrite_of_outside s f v ha⟩
  case inside =>
    refine (Memory.get_writeWord_inside s.shm s.params.shmEndian f.addr v hk).trans ?_
    cases s.params.shmEndian <;> rfl

end Sys2Proof.Machine
end

section
/-! What each event can do, said once: the fields a push, a pull and the two bus paths leave alone, the state each step ends in, and that no
part of a step leaves the canonical form of the shared record. -/

namespace Sys2Proof.Machine

/-! The push and the pull. -/

theorem push_of_valid {s : State} (hv : s.bridgeValid = true) :
    s.push = (nextOrder s).foldl pushField { s with orders := s.orders.tail } := by
  rw [← pushStores_eq]
  exact if_pos hv

/-- A push changes the shared record, the agent's own fields, the order list and the trace (R160, R161, R166). -/
theorem push_frame (s : State) :
    s.push = { s with shm := s.push.shm, extSeen := s.push.extSeen, bursts := s.push.bursts, orders := s.push.orders,
                      diag := s.push.diag } := by
  rcases Bool.eq_false_or_eq_true s.bridgeValid with hv | hv
  · rw [(push_effect s).frame hv]
  · rw [(push_effect s).skipped hv]

@[simp] theorem push_params (s : State) : s.push.params = s.params := by rw [push_frame]
@[simp] theorem push_inited (s : State) : s.push.inited = s.inited := by rw [push_frame]
@[simp] theorem push_bridgeValid (s : State) : s.push.bridgeValid = s.bridgeValid := by rw [push_frame]

theorem push_diag (s : State) : s.push.diag = s.diag ++ if s.bridgeValid then [] else [.bridgeSkipped .push] := by
  cases hv : s.bridgeValid
  · rw [(push_effect s).skipped hv]
    rfl
  · rw [(push_effect s).frame hv]
    exact (List.append_nil _).symm

/-- A pull changes LEVEL, the shared record, the agent's own fields, the order list and the trace (R163, R166). -/
theorem pull_frame (s : State) :
    s.pull = { s with regs := s.pull.regs, shm := s.pull.shm, extSeen := s.pull.extSeen, bursts := s.pull.bursts,
                      pullOrders := s.pull.pullOrders, diag := s.pull.diag } := by
  rcases Bool.eq_false_or_eq_true s.bridgeValid with hv | hv
  · rw [(pull_effect s).frame hv, turns_frame]
  · rw [(pull_effect s).skipped hv]

@[simp] theorem pull_params (s : State) : s.pull.params = s.params := by rw [pull_frame]
@[simp] theorem pull_inited (s : State) : s.pull.inited = s.inited := by rw [pull_frame]
@[simp] theorem pull_bridgeValid (s : State) : s.pull.bridgeValid = s.bridgeValid := by rw [pull_frame]
@[simp] theorem pull_fsel (s : State) : s.pull.regs.fsel = s.regs.fsel := by rw [pull_regs]
@[simp] theorem pull_gpset (s : State) : s.pull.regs.gpset = s.regs.gpset := by rw [pull_regs]
@[simp] theorem pull_gpclr (s : State) : s.pull.regs.gpclr = s.regs.gpclr := by rw [pull_regs]
@[simp] theorem pull_outstate (s : State) : s.pull.regs.outstate = s.regs.outstate := by rw [pull_regs]
@[simp] theorem pull_wcount (s : State) : s.pull.regs.wcount = s.regs.wcount := by rw [pull_regs]

theorem pull_diag (s : State) : s.pull.diag = s.diag ++ if s.bridgeValid then [] else [.bridgeSkipped .pull] := by
  cases hv : s.bridgeValid
  · rw [(pull_effect s).skipped hv]
    rfl
  · rw [(pull_effect s).frame hv, turns_frame]
    exact (List.append_nil _).symm

/-- A level bit that is not an Input pin's is kept by a pull, the bridge valid or not (R163). -/
theorem pull_level_kept {s : State} {p : Pin} (h : isInput s.regs.fsel p = false) :
    Bank.bit s.pull.regs.level p = Bank.bit s.regs.level p := by
  cases hv : s.bridgeValid
  · rw [(pull_effect s).skipped hv]
  · exact (pull_effect s).kept hv p h

/-- A level bit of no pin is kept by a pull, the bridge valid or not (R28, R163). -/
theorem pull_level_noPin (s : State) {r : Fin 2} {j : Nat} (h : noPinAt r j) :
    (Bank.get s.pull.regs.level r).getLsbD j = (Bank.get s.regs.level r).getLsbD j := by
  cases hv : s.bridgeValid
  · rw [(pull_effect s).skipped hv]
  · exact (pull_effect s).noPin hv r j h

/-! A bus read. -/

/-- A bus read is its pull, the records it appends and the data it delivers (R170). -/
theorem busReadPath_eq (offset : Nat) (s : State) :
    ∃ records data, busReadPath offset s = { s.pull with diag := s.pull.diag ++ records, result := .busData data } := by
  cases h : readable offset with
  | some reg => exact ⟨[], _, by simp only [busReadPath, h, List.append_nil]; rfl⟩
  | none => exact ⟨[.badOffsetRead offset], 0, by simp only [busReadPath, h]; rfl⟩

@[simp] theorem busReadPath_regs (offset : Nat) (s : State) : (busReadPath offset s).regs = s.pull.regs := by
  obtain ⟨_, _, h⟩ := busReadPath_eq offset s
  rw [h]

@[simp] theorem busReadPath_shm (offset : Nat) (s : State) : (busReadPath offset s).shm = s.pull.shm := by
  obtain ⟨_, _, h⟩ := busReadPath_eq offset s
  rw [h]

@[simp] theorem busReadPath_params (offset : Nat) (s : State) : (busReadPath offset s).params = s.params := by
  obtain ⟨_, _, h⟩ := busReadPath_eq offset s
  rw [h, pull_params]

@[simp] theorem busReadPath_inited (offset : Nat) (s : State) : (busReadPath offset s).inited = s.inited := by
  obtain ⟨_, _, h⟩ := busReadPath_eq offset s
  rw [h, pull_inited]

@[simp] theorem busReadPath_bridgeValid (offset : Nat) (s : State) : (busReadPath offset s).bridgeValid = s.bridgeValid := by
  obtain ⟨_, _, h⟩ := busReadPath_eq offset s
  rw [h, pull_bridgeValid]

theorem busReadPath_diag (offset : Nat) (s : State) : ∃ records, (busReadPath offset s).diag = s.diag ++ records := by
  obtain ⟨_, _, h⟩ := busReadPath_eq offset s
  rw [h, pull_diag, List.append_assoc]
  exact ⟨_, rfl⟩

/-! A bus write. -/

theorem beforeDerive_of_writable {offset : Nat} {reg : Reg} (h : writable offset = some reg) (value : Nat) (s : State) :
    beforeDerive offset value s =
      { s with regs := RegFile.write { s.regs with wcount := s.regs.wcount + 1 } reg (trunc32 value) } := by
  simp only [beforeDerive, h]
  rfl

theorem beforeDerive_of_bad {offset : Nat} (h : writable offset = none) (value : Nat) (s : State) :
    beforeDerive offset value s =
      { s with regs := { s.regs with wcount := s.regs.wcount + 1 },
               diag := s.diag ++ [.badOffsetWrite offset (trunc32 value)] } := by
  simp only [beforeDerive, h]
  rfl

/-- Up to its derive pass a bus write changes the register file and the trace (R210). -/
theorem beforeDerive_frame (offset value : Nat) (s : State) :
    beforeDerive offset value s =
      { s with regs := (beforeDerive offset value s).regs, diag := (beforeDerive offset value s).diag } := by
  cases h : writable offset with
  | some reg => rw [beforeDerive_of_writable h]
  | none => rw [beforeDerive_of_bad h]

@[simp] theorem beforeDerive_params (offset value : Nat) (s : State) : (beforeDerive offset value s).params = s.params := by
  rw [beforeDerive_frame]

@[simp] theorem beforeDerive_outstate (offset value : Nat) (s : State) :
    (beforeDerive offset value s).regs.outstate = s.regs.outstate := by
  cases h : writable offset with
  | some reg => rw [beforeDerive_of_writable h]; exact RegFile.write_outstate _ reg _
  | none => rw [beforeDerive_of_bad h]

@[simp] theorem beforeDerive_wcount (offset value : Nat) (s : State) :
    (beforeDerive offset value s).regs.wcount = s.regs.wcount + 1 := by
  cases h : writable offset with
  | some reg => rw [beforeDerive_of_writable h]; exact RegFile.write_wcount _ reg _
  | none => rw [beforeDerive_of_bad h]

/-- What the register map finds is the register of a descriptor at that offset that allows the access (R72). -/
theorem exists_desc_of_registerAt {allowed : Access → Bool} {descs : List RegDesc} {offset : Nat} {reg : Reg}
    (h : registerAt allowed descs offset = some reg) : ∃ d ∈ descs, d.offset = offset ∧ allowed d.access = true ∧ d.reg = reg := by
  induction descs with
  | nil => cases h
  | cons d rest ih =>
    rw [registerAt] at h
    split at h
    next hd =>
      obtain ⟨hoffset, hallowed⟩ := Bool.and_eq_true_iff.mp hd
      exact ⟨d, List.mem_cons_self, of_decide_eq_true hoffset, hallowed, Option.some.inj h⟩
    next =>
      obtain ⟨d', hmem, hd'⟩ := ih h
      exact ⟨d', List.mem_cons_of_mem d hmem, hd'⟩

/-- A level register is no target of a bus write (R119, R248, R249). -/
theorem writable_ne_level {offset : Nat} {reg : Reg} (h : writable offset = some reg) (r : Fin 2) : reg ≠ .level r := by
  have all : ∀ d ∈ registerMap, (d.access != .readOnly) = true → ∀ r, d.reg ≠ .level r := by decide
  obtain ⟨d, hmem, -, hallowed, rfl⟩ := exists_desc_of_registerAt h
  exact all d hmem hallowed r

theorem RegFile.write_level_of_ne (f : RegFile) {reg : Reg} (v : Word) (h : ∀ r, reg ≠ .level r) :
    (f.write reg v).level = f.level :=
  Bank.eq_of_get fun r => RegFile.read_write_of_ne f (reg' := .level r) v (h r).symm

@[simp] theorem beforeDerive_level (offset value : Nat) (s : State) :
    (beforeDerive offset value s).regs.level = s.regs.level := by
  cases h : writable offset with
  | some reg => rw [beforeDerive_of_writable h]; exact RegFile.write_level_of_ne _ _ (writable_ne_level h)
  | none => rw [beforeDerive_of_bad h]

/-- A bus write whose passes run is a push from the derived state, whose result is already delivered (R210). -/
theorem busWritePath_of_runs {offset : Nat} {s : State} (h : runsPasses offset s = true) (value : Nat) :
    busWritePath offset value s = ((beforeDerive offset value s).derive.deliver .nothing).push := by
  simp only [busWritePath, h, if_true]
  exact (push_deliver _ _).symm

/-- A bus write whose passes do not run stops before them (R247). -/
theorem busWritePath_of_not_runs {offset : Nat} {s : State} (h : runsPasses offset s = false) (value : Nat) :
    busWritePath offset value s = (beforeDerive offset value s).deliver .nothing := by
  simp only [busWritePath, h, Bool.false_eq_true, if_false]

theorem busWritePath_regs_of_runs {offset : Nat} {s : State} (h : runsPasses offset s = true) (value : Nat) :
    (busWritePath offset value s).regs = deriveRegs s.params.tieClearsClr (beforeDerive offset value s).regs := by
  rw [busWritePath_of_runs h, push_regs, State.deliver_regs, State.derive_regs, beforeDerive_params]

theorem busWritePath_regs_of_not_runs {offset : Nat} {s : State} (h : runsPasses offset s = false) (value : Nat) :
    (busWritePath offset value s).regs = (beforeDerive offset value s).regs := by
  rw [busWritePath_of_not_runs h, State.deliver_regs]

/-- A write whose passes do not run is a bad-offset write, its offset being that of no writable register (R210, R247). -/
theorem writable_eq_none_of_not_runs {offset : Nat} {s : State} (h : runsPasses offset s = false) : writable offset = none := by
  have hbad : (writable offset).isSome = false := (Bool.or_eq_false_iff.mp h).1
  exact Option.isNone_iff_eq_none.mp (Option.isSome_eq_false_iff.mp hbad)

@[simp] theorem busWritePath_params (offset value : Nat) (s : State) : (busWritePath offset value s).params = s.params := by
  cases h : runsPasses offset s
  · rw [busWritePath_of_not_runs h, beforeDerive_frame]; rfl
  · rw [busWritePath_of_runs h, beforeDerive_frame, push_params]; rfl

@[simp] theorem busWritePath_inited (offset value : Nat) (s : State) : (busWritePath offset value s).inited = s.inited := by
  cases h : runsPasses offset s
  · rw [busWritePath_of_not_runs h, beforeDerive_frame]; rfl
  · rw [busWritePath_of_runs h, beforeDerive_frame, push_inited]; rfl

@[simp] theorem busWritePath_bridgeValid (offset value : Nat) (s : State) :
    (busWritePath offset value s).bridgeValid = s.bridgeValid := by
  cases h : runsPasses offset s
  · rw [busWritePath_of_not_runs h, beforeDerive_frame]; rfl
  · rw [busWritePath_of_runs h, beforeDerive_frame, push_bridgeValid]; rfl

@[simp] theorem busWritePath_level (offset value : Nat) (s : State) :
    (busWritePath offset value s).regs.level = s.regs.level := by
  cases h : runsPasses offset s
  · rw [busWritePath_regs_of_not_runs h, beforeDerive_level]
  · rw [busWritePath_regs_of_runs h, deriveRegs_level, beforeDerive_level]

@[simp] theorem busWritePath_wcount (offset value : Nat) (s : State) :
    (busWritePath offset value s).regs.wcount = s.regs.wcount + 1 := by
  cases h : runsPasses offset s
  · rw [busWritePath_regs_of_not_runs h, beforeDerive_wcount]
  · rw [busWritePath_regs_of_runs h, deriveRegs_wcount, beforeDerive_wcount]

theorem beforeDerive_diag (offset value : Nat) (s : State) : ∃ records, (beforeDerive offset value s).diag = s.diag ++ records := by
  cases h : writable offset with
  | some reg => exact ⟨[], by rw [beforeDerive_of_writable h, List.append_nil]⟩
  | none => exact ⟨_, by rw [beforeDerive_of_bad h]⟩

theorem busWritePath_diag (offset value : Nat) (s : State) :
    ∃ records, (busWritePath offset value s).diag = s.diag ++ records := by
  obtain ⟨records, hbefore⟩ := beforeDerive_diag offset value s
  cases h : runsPasses offset s
  · exact ⟨records, by rw [busWritePath_of_not_runs h, State.deliver_diag, hbefore]⟩
  · rw [busWritePath_of_runs h, push_diag, State.deliver_diag, State.derive_diag, hbefore, List.append_assoc]
    exact ⟨_, rfl⟩

/-! The step, event by event. -/

/-- The state a line event leaves (R261). -/
def lineState (p : Pin) (level : Bool) (s : State) : State :=
  (if isInput s.regs.fsel p then s.setLevel p level else s).deliver .nothing

/-- A line event changes LEVEL of the register file and nothing else. -/
theorem lineState_regs (p : Pin) (level : Bool) (s : State) :
    (lineState p level s).regs = { s.regs with level := (lineState p level s).regs.level } := by
  unfold lineState
  split <;> rfl

theorem lineState_frame (p : Pin) (level : Bool) (s : State) :
    lineState p level s = { s with regs := (lineState p level s).regs, result := .nothing } := by
  unfold lineState
  split <;> rfl

@[simp] theorem lineState_shm (p : Pin) (level : Bool) (s : State) : (lineState p level s).shm = s.shm := by
  unfold lineState
  split <;> rfl

/-- The state the first INIT leaves (R301). -/
def initState (attach : Attach) (s : State) : State :=
  ({ s with inited := true, regs := createdRegs s.draws, draws := s.draws + 1 }.attach attach).deliver .nothing

/-- An access of the external agent is a change of the record and of what the agent has seen (R92). -/
theorem extAccess_withPending_frame (s : State) (rest : List Input) (a : ExtAccess) :
    (s.withPending rest).extAccess a =
      { s with pending := rest, shm := ((s.withPending rest).extAccess a).shm,
               extSeen := ((s.withPending rest).extAccess a).extSeen } :=
  extAccess_frame (s.withPending rest) a

/-- Every way in which a step can end, by the inputs that were pending. -/
inductive StepTo (s : State) : List Input → State → Prop where
  | idle : StepTo s [] s
  | ext (a : ExtAccess) (rest : List Input) : StepTo s (.ext a :: rest) ((s.withPending rest).extAccess a)
  | busRead (offset width : Nat) (rest : List Input) :
    StepTo s (.op (.busRead offset width) :: rest) (busReadPath offset (s.withPending rest))
  | busWrite (offset width value : Nat) (rest : List Input) :
    StepTo s (.op (.busWrite offset width value) :: rest) (busWritePath offset value (s.withPending rest))
  | line (pin : Nat) (level : Int) (p : Pin) (rest : List Input) :
    StepTo s (.op (.line pin level) :: rest) (lineState p (decide (level ≠ 0)) (s.withPending rest))
  | reset (rest : List Input) : StepTo s (.op .reset :: rest) { s with pending := rest, regs := .zero, result := .nothing }
  | init (attach : Attach) (rest : List Input) (h : s.inited = false) :
    StepTo s (.op (.init attach) :: rest) (initState attach (s.withPending rest))
  | snapSave (rest : List Input) :
    StepTo s (.op .snapSave :: rest) { s with pending := rest, result := .snapshot (snapOf s.regs) }
  | snapLoad (words : List Word) (fields : SnapFields) (rest : List Input) :
    StepTo s (.op (.snapLoad words) :: rest) { s with pending := rest, regs := loadSnap s.regs fields, result := .nothing }

/-- Every step that ends in a state ends in one of these ways. -/
theorem stepTo_of_step {s t : State} (h : step s = .next t) : ∃ inputs, s.pending = inputs ∧ StepTo s inputs t := by
  cases hp : s.pending with
  | nil =>
    rw [step_of_idle hp] at h
    cases h
    exact ⟨_, rfl, .idle⟩
  | cons input rest =>
    refine ⟨_, rfl, ?_⟩
    cases input with
    | ext a =>
      rw [step_of_ext hp] at h
      cases h
      exact .ext a rest
    | op e =>
      cases hdec : decode e with
      | error err =>
        rw [step_of_decode_error hp hdec] at h
        cases h
      | ok i =>
        rw [step_of_op hp hdec] at h
        cases e with
        | busRead offset width =>
          cases hdec
          rw [exec_decodeRead] at h
          cases h
          exact .busRead offset width rest
        | busWrite offset width value =>
          cases hdec
          rw [exec_decodeWrite] at h
          cases h
          exact .busWrite offset width value rest
        | line pin level =>
          obtain ⟨p, rfl⟩ := decodeLine_eq_ok hdec
          cases h
          exact .line pin level p rest
        | reset => cases hdec; cases h; exact .reset rest
        | init attach =>
          cases hdec
          cases hi : s.inited
          · rw [exec_init_of_not_inited (s := s.withPending rest) hi] at h
            cases h
            exact .init attach rest hi
          · rw [exec_init_of_inited (s := s.withPending rest) hi] at h
            cases h
        | snapSave => cases hdec; cases h; exact .snapSave rest
        | snapLoad words =>
          obtain ⟨fields, rfl⟩ := decodeSnapLoad_eq_ok hdec
          cases h
          exact .snapLoad words fields rest
        | unlisted sel => cases hdec

end Sys2Proof.Machine
end

section
/-! The three invariants (10_state.md section 7, 20_memory.md section 2): the state after reset meets each, and every step keeps it. -/

namespace Sys2Proof.Machine

/-! The canonical form of the shared record. -/

theorem wf_foldl_extAccess (accesses : List ExtAccess) {s : State} (h : Memory.wf s.shm = true) :
    Memory.wf (accesses.foldl State.extAccess s).shm = true := by
  induction accesses generalizing s with
  | nil => exact h
  | cons a rest ih =>
    cases a with
    | load f => exact ih h
    | store f v => exact ih (State.wf_shmWrite f v h)

theorem wf_extTurn {s : State} (h : Memory.wf s.shm = true) : Memory.wf s.extTurn.shm = true := by
  unfold State.extTurn
  split
  · exact h
  · next burst rest _ => exact wf_foldl_extAccess burst (s := { s with bursts := rest }) h

theorem wf_turns (n : Nat) {s : State} (h : Memory.wf s.shm = true) : Memory.wf (turns n s).shm = true := by
  induction n generalizing s with
  | zero => exact h
  | succ n ih => exact ih (wf_extTurn h)

theorem wf_foldl_pushField (fields : List ShmField) {s : State} (h : Memory.wf s.shm = true) :
    Memory.wf (fields.foldl pushField s).shm = true := by
  induction fields generalizing s with
  | nil => exact h
  | cons f rest ih => exact ih (State.wf_shmWrite f _ (wf_extTurn h))

theorem wf_push {s : State} (h : Memory.wf s.shm = true) : Memory.wf s.push.shm = true := by
  cases hv : s.bridgeValid
  · rw [(push_effect s).skipped hv]
    exact h
  · rw [push_of_valid hv]
    exact wf_foldl_pushField _ h

theorem wf_pull {s : State} (h : Memory.wf s.shm = true) : Memory.wf s.pull.shm = true := by
  cases hv : s.bridgeValid
  · rw [(pull_effect s).skipped hv]
    exact h
  · rw [(pull_effect s).frame hv]
    exact wf_turns _ h

theorem wf_busWritePath (offset value : Nat) {s : State} (h : Memory.wf s.shm = true) :
    Memory.wf (busWritePath offset value s).shm = true := by
  have hbefore : (beforeDerive offset value s).shm = s.shm := by rw [beforeDerive_frame]
  cases hr : runsPasses offset s
  · rw [busWritePath_of_not_runs hr, State.deliver_shm, hbefore]
    exact h
  · rw [busWritePath_of_runs hr]
    refine wf_push ?_
    rw [State.deliver_shm, State.derive_shm, hbefore]
    exact h

theorem wf_memoryOf (e : Config.Endian) (m : ShmWords) : Memory.wf (memoryOf e m) = true := by
  have hstore : ∀ fields : List ShmField, Memory.wf (storeWords e m fields) = true := by
    intro fields
    induction fields with
    | nil => rfl
    | cons f rest ih => exact Memory.wf_writeWord e f.addr _ ih f.addr_lt
  exact memoryOf_eq_storeWords e m ▸ hstore recordFields

theorem wf_initState (attach : Attach) {s : State} (h : Memory.wf s.shm = true) : Memory.wf (initState attach s).shm = true := by
  cases attach with
  | found => exact h
  | created contents => exact wf_memoryOf _ contents
  | failed => exact h

/-- Settles O49: the record changes in stores of the agent, in a push and in the attach of a created segment, and each writes whole words inside
its 40 bytes. -/
theorem stepsKeepTheRecordCanonical : Obligations.StepsKeepTheRecordCanonical := by
  unfold Obligations.StepsKeepTheRecordCanonical Canonical
  intro s t hwf hstep
  obtain ⟨inputs, -, hto⟩ := stepTo_of_step hstep
  cases hto with
  | idle => exact hwf
  | ext a rest => exact wf_foldl_extAccess [a] (s := s.withPending rest) hwf
  | busRead offset width rest => rw [busReadPath_shm]; exact wf_pull hwf
  | busWrite offset width value rest => exact wf_busWritePath offset value hwf
  | line pin level p rest => rw [lineState_shm]; exact hwf
  | init attach rest _ => exact wf_initState attach hwf
  | reset rest | snapSave rest | snapLoad words fields rest => exact hwf

/-! The one-shot bits of Output pins. -/

/-- After a reset no pin is Output, so there is no bit to consume. -/
theorem oneShotsConsumed_zero : OneShotsConsumed .zero := by
  intro p hout
  have hzero : fnCode .zero p = 1 := isOutput_iff.mp hout
  rw [fnCode_zero] at hzero
  exact absurd hzero (by decide)

/-- A derive pass consumes the one-shot bits; without one the write touched none of what the invariant speaks of (R51, R247). -/
theorem oneShotsConsumed_busWritePath (offset value : Nat) {s : State} (htie : s.params.tieClearsClr = true)
    (h : OneShotsConsumed s.regs) : OneShotsConsumed (busWritePath offset value s).regs := by
  cases hr : runsPasses offset s
  · rw [busWritePath_regs_of_not_runs hr, beforeDerive_of_bad (writable_eq_none_of_not_runs hr)]
    exact h.congr rfl rfl rfl
  · rw [busWritePath_regs_of_runs hr, htie]
    exact oneShotsConsumed_deriveRegs _

/-- Settles O50: a bus write derives, every other step but SNAPLOAD and INIT leaves the function-select, SET and CLR registers alone or zeroes them,
and a second INIT is refused. -/
theorem stepsKeepOneShotsConsumed : Obligations.StepsKeepOneShotsConsumed := by
  unfold Obligations.StepsKeepOneShotsConsumed Settled
  rintro s t ⟨hinit, htie, hconsumed⟩ hnext hstep
  obtain ⟨inputs, hp, hto⟩ := stepTo_of_step hstep
  cases hto with
  | idle => exact ⟨hinit, htie, hconsumed⟩
  | ext a rest => rw [extAccess_withPending_frame]; exact ⟨hinit, htie, hconsumed⟩
  | busRead offset width rest =>
    rw [busReadPath_inited, busReadPath_params, busReadPath_regs]
    exact ⟨hinit, htie, hconsumed.congr (pull_fsel _) (pull_gpset _) (pull_gpclr _)⟩
  | busWrite offset width value rest =>
    rw [busWritePath_inited, busWritePath_params]
    exact ⟨hinit, htie, oneShotsConsumed_busWritePath offset value htie hconsumed⟩
  | line pin level p rest =>
    rw [lineState_frame, lineState_regs]
    exact ⟨hinit, htie, hconsumed.congr rfl rfl rfl⟩
  | reset rest => exact ⟨hinit, htie, oneShotsConsumed_zero⟩
  | init attach rest hi => exact absurd (hinit.symm.trans hi) (by decide)
  | snapSave rest => exact ⟨hinit, htie, hconsumed⟩
  | snapLoad words fields rest => simp [nextIsSnapLoad, hp] at hnext

/-! The no-pin bits of OUTSTATE and LEVEL. -/

theorem noPinBitsClear_iff {f : RegFile} :
    NoPinBitsClear f ↔ ∀ r j, noPinAt r j →
      (Bank.get f.outstate r).getLsbD j = false ∧ (Bank.get f.level r).getLsbD j = false := by
  constructor
  · rintro ⟨hout, hlevel⟩ r j ⟨rfl, hj⟩
    exact ⟨hout j hj, hlevel j hj⟩
  · intro h
    exact ⟨fun j hj => (h 1 j ⟨rfl, hj⟩).1, fun j hj => (h 1 j ⟨rfl, hj⟩).2⟩

/-- The invariant speaks of the no-pin bits alone, so what keeps those bits keeps it. -/
theorem NoPinBitsClear.congr {f g : RegFile} (h : NoPinBitsClear f)
    (hout : ∀ r j, noPinAt r j → (Bank.get g.outstate r).getLsbD j = (Bank.get f.outstate r).getLsbD j)
    (hlevel : ∀ r j, noPinAt r j → (Bank.get g.level r).getLsbD j = (Bank.get f.level r).getLsbD j) : NoPinBitsClear g := by
  refine noPinBitsClear_iff.mpr fun r j hno => ?_
  rw [hout r j hno, hlevel r j hno]
  exact noPinBitsClear_iff.mp h r j hno

theorem noPinBitsClear_zero : NoPinBitsClear .zero := by
  refine noPinBitsClear_iff.mpr fun r j _ => ?_
  simp [RegFile.zero]

/-- A write of a bank's bit at a pin leaves the no-pin bits alone (R28). -/
theorem Bank.getLsbD_setBit_noPin (k : Bank) (p : Pin) (x : Bool) {r : Fin 2} {j : Nat} (h : noPinAt r j) :
    ((k.setBit p x).get r).getLsbD j = (k.get r).getLsbD j := by
  rw [Bank.getLsbD_setBit, if_neg]
  rintro ⟨hr, hj⟩
  exact not_pin_of_noPin h p ⟨hr.symm, hj.symm⟩

theorem busWritePath_outstate_noPin (offset value : Nat) (s : State) {r : Fin 2} {j : Nat} (h : noPinAt r j) :
    (Bank.get (busWritePath offset value s).regs.outstate r).getLsbD j = (Bank.get s.regs.outstate r).getLsbD j := by
  rw [← beforeDerive_outstate offset value s]
  cases hr : runsPasses offset s
  · rw [busWritePath_regs_of_not_runs hr]
  · rw [busWritePath_regs_of_runs hr]
    exact (deriveRegs_noPin _ _ h).1

theorem lineState_level_noPin (p : Pin) (level : Bool) (s : State) {r : Fin 2} {j : Nat} (h : noPinAt r j) :
    (Bank.get (lineState p level s).regs.level r).getLsbD j = (Bank.get s.regs.level r).getLsbD j := by
  unfold lineState
  split
  · exact Bank.getLsbD_setBit_noPin s.regs.level p level h
  · rfl

/-- Settles O51: the passes, the pull and the line event write bits of pins alone, a reset zeroes both banks, and a second INIT is refused (R55). -/
theorem stepsKeepNoPinBitsClear : Obligations.StepsKeepNoPinBitsClear := by
  unfold Obligations.StepsKeepNoPinBitsClear NoPinClear
  rintro s t ⟨hinit, hclear⟩ hnext hstep
  obtain ⟨inputs, hp, hto⟩ := stepTo_of_step hstep
  cases hto with
  | idle => exact ⟨hinit, hclear⟩
  | ext a rest => rw [extAccess_withPending_frame]; exact ⟨hinit, hclear⟩
  | busRead offset width rest =>
    rw [busReadPath_inited, busReadPath_regs]
    exact ⟨hinit, hclear.congr (fun _ _ _ => by rw [pull_outstate]; rfl) fun _ _ hno => pull_level_noPin _ hno⟩
  | busWrite offset width value rest =>
    rw [busWritePath_inited]
    exact ⟨hinit, hclear.congr (fun _ _ hno => busWritePath_outstate_noPin offset value _ hno)
      fun _ _ _ => by rw [busWritePath_level]; rfl⟩
  | line pin level p rest =>
    rw [lineState_frame]
    refine ⟨hinit, hclear.congr (fun _ _ _ => by rw [lineState_regs]; rfl) fun _ _ hno => ?_⟩
    exact lineState_level_noPin p _ (s.withPending rest) hno
  | reset rest => exact ⟨hinit, noPinBitsClear_zero⟩
  | init attach rest hi => exact absurd (hinit.symm.trans hi) (by decide)
  | snapSave rest => exact ⟨hinit, hclear⟩
  | snapLoad words fields rest => simp [nextIsSnapLoad, hp] at hnext

/-- Settles O52: the zero register file and the empty record meet the three. -/
theorem resetMeetsTheInvariants : Obligations.ResetMeetsTheInvariants := by
  unfold Obligations.ResetMeetsTheInvariants
  exact ⟨wf_reset, ⟨rfl, rfl, oneShotsConsumed_zero⟩, rfl, noPinBitsClear_zero⟩

end Sys2Proof.Machine
end

section
/-! The pin maps (30_encoding.md section 3, 40_pin_function_decoder.md): a code put into a pin's field, the two masks, and the narrow index. -/

namespace Sys2Proof.Machine

/-! A code in a field. -/

theorem fselShift_add_le (p : Pin) : fselShift p + 3 ≤ 32 := by
  unfold fselShift
  omega

/-- Two pins share a function field only when they are the same pin (R123). -/
theorem fields_disjoint {p q : Pin} (hreg : fselReg q = fselReg p) (hne : q ≠ p) {j : Nat} (hj : j < 3) :
    ¬ (fselShift p ≤ fselShift q + j ∧ fselShift q + j < fselShift p + 3) := by
  have hdiv : q.val / 10 = p.val / 10 := congrArg Fin.val hreg
  have hval : q.val ≠ p.val := fun h => hne (Fin.ext h)
  unfold fselShift
  omega

/-- The mask of a field, bit by bit. -/
theorem getLsbD_fieldMask {sh i : Nat} (hi : i < 32) : (7#32 <<< sh).getLsbD i = decide (sh ≤ i ∧ i < sh + 3) := by
  rw [BitVec.getLsbD_shiftLeft, BitVec.getLsbD_ofNat, show 7 = 2 ^ 3 - 1 from rfl, Nat.testBit_two_pow_sub_one, Bool.eq_iff_iff]
  simp only [Bool.and_eq_true, Bool.not_eq_true', decide_eq_true_eq, decide_eq_false_iff_not]
  omega

/-- A word with a code put into the field at `sh`, bit by bit (R10, R24). -/
theorem getLsbD_putField (w : Word) (c : BitVec 3) {sh i : Nat} (hi : i < 32) :
    ((w &&& ~~~(7#32 <<< sh)) ||| (c.setWidth 32 <<< sh)).getLsbD i =
      if sh ≤ i ∧ i < sh + 3 then c.getLsbD (i - sh) else w.getLsbD i := by
  have hcode : (c.setWidth 32 <<< sh).getLsbD i = (decide (sh ≤ i ∧ i < sh + 3) && c.getLsbD (i - sh)) := by
    rw [BitVec.getLsbD_shiftLeft, BitVec.getLsbD_setWidth]
    by_cases hin : sh ≤ i ∧ i < sh + 3
    case pos => simp [hin, hi, Nat.not_lt.mpr hin.1, show i - sh < 32 by omega]
    case neg =>
      rcases Nat.lt_or_ge i sh with hlt | hge
      · simp [hlt, hin]
      · simp [hin, BitVec.getLsbD_of_ge c (i - sh) (by omega)]
  rw [BitVec.getLsbD_or, BitVec.getLsbD_and, BitVec.getLsbD_not, getLsbD_fieldMask hi, hcode]
  by_cases hin : sh ≤ i ∧ i < sh + 3
  case pos => simp [hin]
  case neg => simp [hin, hi]

/-- Settles O16: the pin's own field takes the code, another field of the same register does not overlap it, and another register is kept. -/
theorem functionFieldsAreIndependent : Obligations.FunctionFieldsAreIndependent := by
  unfold Obligations.FunctionFieldsAreIndependent
  intro f p c q w f'
  refine BitVec.eq_of_getLsbD_eq fun j hj => ?_
  have hplace : fselShift q + j < 32 := Nat.lt_of_lt_of_le (Nat.add_lt_add_left hj _) (fselShift_add_le q)
  rw [fnCode_getLsbD f' q hj]
  by_cases hreg : fselReg q = fselReg p
  case pos =>
    rw [hreg, FselRegs.get_put_same, getLsbD_putField w c hplace]
    by_cases hq : q = p
    case pos =>
      rw [hq, if_pos rfl, if_pos ⟨Nat.le_add_right _ _, Nat.add_lt_add_left hj _⟩, Nat.add_sub_cancel_left]
    case neg => rw [if_neg hq, if_neg (fields_disjoint hreg hq hj), fnCode_getLsbD f q hj, hreg]
  case neg =>
    rw [FselRegs.get_put_of_ne _ _ hreg, if_neg fun hq => hreg (congrArg fselReg hq), fnCode_getLsbD f q hj]

/-! The two masks. -/

theorem isInput_eq_decide (f : FselRegs) (p : Pin) : isInput f p = decide (fnCode f p = 0) := beq_eq_decide _ _

theorem isOutput_eq_decide (f : FselRegs) (p : Pin) : isOutput f p = decide (fnCode f p = 1) := beq_eq_decide _ _

/-- Masks of tests that exclude each other have no bit in common (R141). -/
theorem maskOf_and_maskOf {test test' : Pin → Bool} (h : ∀ p, (test p && test' p) = false) (r : Fin 2) :
    maskOf test r &&& maskOf test' r = 0 := by
  refine BitVec.eq_of_getLsbD_eq fun j hj => ?_
  rw [BitVec.getLsbD_and, BitVec.ofNat_eq_ofNat, BitVec.getLsbD_zero]
  rcases pin_or_noPin r j hj with ⟨p, rfl, rfl⟩ | hno
  · rw [getLsbD_maskOf_pin, getLsbD_maskOf_pin, h p]
  · rw [getLsbD_maskOf_noPin test hno, Bool.false_and]

theorem not_input_and_output (f : FselRegs) (p : Pin) : (isInput f p && isOutput f p) = false := by
  refine Bool.eq_false_iff.mpr fun hboth => ?_
  obtain ⟨hin, hout⟩ := Bool.and_eq_true_iff.mp hboth
  exact absurd ((isInput_iff.mp hin).symm.trans (isOutput_iff.mp hout)) (by decide)

/-- Settles O17: a mask's bit at a pin is the test of its code, at a place of no pin 0, and the codes 0 and 1 are different (R141). -/
theorem masksCollectThePins : Obligations.MasksCollectThePins := by
  unfold Obligations.MasksCollectThePins
  intro f
  refine ⟨fun p => ⟨?_, ?_⟩, fun j hj => ?_, fun r => maskOf_and_maskOf (not_input_and_output f) r⟩
  · exact (getLsbD_maskOf_pin _ p).trans (isInput_eq_decide f p)
  · exact (getLsbD_maskOf_pin _ p).trans (isOutput_eq_decide f p)
  · exact ⟨getLsbD_maskOf_noPin _ ⟨rfl, hj⟩, getLsbD_maskOf_noPin _ ⟨rfl, hj⟩⟩

/-- Settles O60: eight pins, each with the quotients and remainders of R123 and R124. -/
theorem narrowIndexTable : Obligations.NarrowIndexTable := by
  unfold Obligations.NarrowIndexTable
  decide

end Sys2Proof.Machine
end

section
/-! Bad offsets in both directions (R196, R247), and the order of two records of one operation (R277). -/

namespace Sys2Proof.Machine

/-! Bus reads. -/

theorem busReadPath_of_bad {offset : Nat} (h : readable offset = none) (width : Nat) (s : State) :
    busReadPath offset s = readBad offset width s := by
  rw [busReadPath_eq_elim offset width, h, Option.elim_none]

/-- A row of the read table at an offset that no readable register has is the bad-offset branch of the common path (R170, R196). -/
theorem badReadRow_of_unreadable (offset : Nat) {op : Nat → Instr} (hop : tableAt readRows offset = some op)
    (hreg : readable offset = none) : BadReadRow offset op := by
  refine ⟨decodeWords_of_readRow hop, fun width s => ⟨readBad offset width s, ?_, readBad_effect offset width s⟩⟩
  rw [exec_readRow (mem_of_tableAt_eq_some hop) width s, busReadPath_of_bad hreg width s]

/-- An offset inside the window that no row of its own covers is the catch-all row RD.BAD (R196). -/
theorem badReadRow_of_unlisted {offset : Nat} (hwindow : offset < Config.MMIO_WINDOW) (hlisted : offset ∉ listedOffsets) :
    BadReadRow offset (.rdBad offset) := by
  refine ⟨fun ops => ?_, fun width s => ⟨_, rfl, readBad_effect offset width s⟩⟩
  rw [decodeWords_busRead (Nat.lt_trans hwindow (by decide)), decodeRead_of_unlisted hlisted hwindow]

/-- Settles O35: a row at a literal offset is two lookups there; the others by where the offset stands to the window. -/
theorem badOffsetReads : Obligations.BadOffsetReads := by
  unfold Obligations.BadOffsetReads
  refine ⟨?writeOnly, ?reserved, fun offset => badReadRow_of_unlisted, fun offset hwindow => ?beyond⟩
  case writeOnly =>
    exact ⟨badReadRow_of_unreadable 0x1c rfl rfl, badReadRow_of_unreadable 0x20 rfl rfl,
      badReadRow_of_unreadable 0x28 rfl rfl, badReadRow_of_unreadable 0x2c rfl rfl⟩
  case reserved =>
    exact ⟨badReadRow_of_unreadable 0x18 rfl rfl, badReadRow_of_unreadable 0x24 rfl rfl,
      badReadRow_of_unreadable 0x30 rfl rfl, badReadRow_of_unreadable 0x3c rfl rfl,
      badReadRow_of_unreadable 0x48 rfl rfl, badReadRow_of_unreadable 0x54 rfl rfl,
      badReadRow_of_unreadable 0x60 rfl rfl, badReadRow_of_unreadable 0x6c rfl rfl,
      badReadRow_of_unreadable 0x78 rfl rfl, badReadRow_of_unreadable 0x84 rfl rfl,
      badReadRow_of_unreadable 0x90 rfl rfl, badReadRow_of_unreadable 0xa0 rfl rfl,
      badReadRow_of_unreadable 0xb0 rfl rfl⟩
  case beyond =>
    exact ⟨fun width => congrArg Except.ok (decodeRead_of_window_le hwindow width),
      fun width s => ⟨_, rfl, readBad_effect offset width s⟩⟩

/-! Bus writes. -/

theorem busWritePath_of_bad {offset : Nat} (h : writable offset = none) (width value : Nat) (s : State) :
    busWritePath offset value s = writeBad offset width value s := by
  rw [busWritePath_eq_elim offset width, h, Option.elim_none]

theorem busWritePath_of_writable {offset : Nat} {reg : Reg} (h : writable offset = some reg) (width value : Nat) (s : State) :
    busWritePath offset value s = writeReg reg width value s := by
  rw [busWritePath_eq_elim offset width, h, Option.elim_some]

/-- Everything the bad-offset branch of a bus write can do (R247). -/
theorem writeBad_effect (offset width value : Nat) (s : State) :
    BadWriteEffect offset value s (writeBad offset width value s) := by
  refine ⟨_, rfl, fun hpost => ⟨_, deriveRegs_effect _ _, ?_⟩, fun hpost => writeBad_eq hpost⟩
  rw [writeBad_eq_push hpost]
  exact push_effect _

/-- With nothing to consume the derive pass of a bad-offset write changes no register either (R156, R247). -/
theorem writeBad_regs_of_consumed (offset width value : Nat) {s : State} (h : OneShotsConsumed s.regs) :
    (writeBad offset width value s).regs = { s.regs with wcount := s.regs.wcount + 1 } := by
  rw [writeBad_regs]
  split
  · exact deriveRegs_of_consumed _ (h.congr rfl rfl rfl)
  · rfl

/-- A row of the write table at an offset that no writable register has is the bad-offset branch of the common path (R210, R247). -/
theorem badWriteRow_of_unwritable (offset : Nat) {op : Nat → Nat → Instr} (hop : tableAt writeRows offset = some op)
    (hreg : writable offset = none) : BadWriteRow offset op := by
  refine ⟨decodeWords_of_writeRow hop, fun width value s =>
    ⟨writeBad offset width value s, ?_, writeBad_effect offset width value s, writeBad_regs_of_consumed offset width value⟩⟩
  rw [exec_writeRow (mem_of_tableAt_eq_some hop) width value s, busWritePath_of_bad hreg width value s]

/-- An offset inside the window that no row of its own covers is the catch-all row WR.BAD (R247). -/
theorem badWriteRow_of_unlisted {offset : Nat} (hwindow : offset < Config.MMIO_WINDOW) (hlisted : offset ∉ listedOffsets) :
    BadWriteRow offset (.wrBad offset) := by
  refine ⟨fun ops => ?_, fun width value s =>
    ⟨_, rfl, writeBad_effect offset width value s, writeBad_regs_of_consumed offset width value⟩⟩
  rw [decodeWords_busWrite (Nat.lt_trans hwindow (by decide)), decodeWrite_of_unlisted hlisted hwindow]

/-- Settles O40, in the same way as the reads. -/
theorem badOffsetWrites : Obligations.BadOffsetWrites := by
  unfold Obligations.BadOffsetWrites
  refine ⟨?levels, ?reserved, fun offset => badWriteRow_of_unlisted, fun offset hwindow => ?beyond⟩
  case levels => exact ⟨badWriteRow_of_unwritable 0x34 rfl rfl, badWriteRow_of_unwritable 0x38 rfl rfl⟩
  case reserved =>
    exact ⟨badWriteRow_of_unwritable 0x18 rfl rfl, badWriteRow_of_unwritable 0x24 rfl rfl,
      badWriteRow_of_unwritable 0x30 rfl rfl, badWriteRow_of_unwritable 0x3c rfl rfl,
      badWriteRow_of_unwritable 0x48 rfl rfl, badWriteRow_of_unwritable 0x54 rfl rfl,
      badWriteRow_of_unwritable 0x60 rfl rfl, badWriteRow_of_unwritable 0x6c rfl rfl,
      badWriteRow_of_unwritable 0x78 rfl rfl, badWriteRow_of_unwritable 0x84 rfl rfl,
      badWriteRow_of_unwritable 0x90 rfl rfl, badWriteRow_of_unwritable 0xa0 rfl rfl,
      badWriteRow_of_unwritable 0xb0 rfl rfl⟩
  case beyond =>
    exact ⟨fun width value => congrArg Except.ok (decodeWrite_of_window_le hwindow width value),
      fun width value s => ⟨_, rfl, writeBad_effect offset width value s⟩⟩

/-! The order of two records. -/

theorem readBad_diag (offset width : Nat) (s : State) :
    (readBad offset width s).diag = s.diag ++ ((if s.bridgeValid then [] else [.bridgeSkipped .pull]) ++ [.badOffsetRead offset]) := by
  rw [readBad, State.deliver_diag, State.emit_diag, pull_diag, List.append_assoc]

theorem writeBad_diag (offset width value : Nat) (s : State) :
    (writeBad offset width value s).diag = s.diag ++ .badOffsetWrite offset (trunc32 value) ::
      (if s.params.postOnBadWrite && !s.bridgeValid then [.bridgeSkipped .push] else []) := by
  cases hpost : s.params.postOnBadWrite
  · rw [writeBad_eq hpost]
    rfl
  · rw [writeBad_eq_push hpost, push_diag, List.append_assoc]
    cases s.bridgeValid <;> rfl

/-- Settles O30: the pull of a read comes before its record, the push of a write after it (R170, R210, R277). -/
theorem twoRecordsComeInTheWrittenOrder : Obligations.TwoRecordsComeInTheWrittenOrder := by
  unfold Obligations.TwoRecordsComeInTheWrittenOrder
  intro s hv
  refine ⟨fun offset width hr => ⟨_, _, rfl, exec_decodeRead offset width s, ?read⟩,
    fun offset width value hw => ⟨_, _, rfl, exec_decodeWrite offset width value s, ?write⟩⟩
  case read =>
    rw [busReadPath_of_bad hr width]
    refine ⟨?_, rfl⟩
    rw [readBad_diag, hv]
    rfl
  case write =>
    rw [busWritePath_of_bad hw width, writeBad_diag, hv, Bool.not_false, Bool.and_true]

end Sys2Proof.Machine
end

section
/-! Bus writes and their derive pass (44_mmio_write.md, 41_output_state_deriver.md): what a pass leaves of the one-shot bits, the set and clear
writes with their net effect, and the same write twice. -/

namespace Sys2Proof.Machine

/-- Settles O19: `deriveRegs_effect` is the mask form of the operation. -/
theorem derivePassInMaskForm : Obligations.DerivePassInMaskForm := by
  unfold Obligations.DerivePassInMaskForm
  intro s
  exact ⟨_, exec_derive s, deriveRegs_effect _ _⟩

/-- Settles O22: the pass leaves of an Output pin's requests at most the clear request of a tie (`oneShots_deriveRegs_of_output`). -/
theorem oneShotBitsAfterAWrite : Obligations.OneShotBitsAfterAWrite := by
  unfold Obligations.OneShotBitsAfterAWrite
  intro offset width value s hr
  refine ⟨_, _, rfl, exec_decodeWrite offset width value s, fun p hout => ?_⟩
  rw [busWritePath_regs_of_runs hr] at hout ⊢
  rw [deriveRegs_fsel] at hout
  obtain ⟨hset, hclr⟩ := oneShots_deriveRegs_of_output s.params.tieClearsClr hout
  refine ⟨hset, fun htie => ?_, fun htie hleft => ?_⟩
  · rw [hclr, htie, Bool.not_true, Bool.false_and]
  · rw [hclr, htie, Bool.not_false, Bool.true_and] at hleft
    exact (Bool.and_eq_true_iff.mp hleft).1

theorem writable_fsel (n : Fin 6) : writable (4 * n.val) = some (.fsel n) := by
  revert n
  decide

/-- Settles O23: the pass of the write finds the pin Output and its requests as they stood before (R154, R158). -/
theorem stuckBitsAreReleased : Obligations.StuckBitsAreReleased := by
  unfold Obligations.StuckBitsAreReleased
  intro n width value s
  refine ⟨_, _, rfl, exec_decodeWrite _ width value s, ?_⟩
  rw [busWritePath_of_writable (writable_fsel n) width, writeReg_regs, deriveRegs_fsel]
  refine ⟨FselRegs.get_put_same _ n _, fun p _ hout => ⟨fun hset => ?set, fun hset hclr => ?clear⟩⟩
  case set =>
    obtain ⟨hrose, htaken, -⟩ := bitsAt_eq_iff.mp (bitsAt_deriveRegs_of_set s.params.tieClearsClr hout hset)
    exact ⟨hrose, htaken⟩
  case clear =>
    obtain ⟨hfell, -, htaken⟩ := bitsAt_eq_iff.mp (bitsAt_deriveRegs_of_clr s.params.tieClearsClr hout hset hclr)
    exact ⟨hfell, htaken⟩

/-! The mask form where one of the two banks has no request of an Output pin. -/

theorem getLsbD_and_eq_false {v w : Word} (h : v &&& w = 0) (j : Nat) : (v.getLsbD j && w.getLsbD j) = false := by
  rw [← BitVec.getLsbD_and, h, BitVec.ofNat_eq_ofNat, BitVec.getLsbD_zero]

theorem deriveMasked_of_no_clr (tie : Bool) {o clr : Word} (h : clr &&& o = 0) (set out : Word) :
    deriveMasked tie o set clr out = (out ||| (set &&& o), set &&& ~~~o, clr) := by
  refine eq_of_placeBits fun j hj => ?_
  have hnone := getLsbD_and_eq_false h j
  rw [placeBits_deriveMasked _ _ _ _ _ hj]
  simp only [placeBits, BitVec.getLsbD_or, BitVec.getLsbD_and, BitVec.getLsbD_not, decide_eq_true hj, Bool.true_and]
  cases ho : o.getLsbD j <;> cases hs : set.getLsbD j <;> simp_all [deriveBits]

theorem deriveMasked_of_no_set (tie : Bool) {o set : Word} (h : set &&& o = 0) (clr out : Word) :
    deriveMasked tie o set clr out = (out &&& ~~~(clr &&& o), set, clr &&& ~~~o) := by
  refine eq_of_placeBits fun j hj => ?_
  have hnone := getLsbD_and_eq_false h j
  rw [placeBits_deriveMasked _ _ _ _ _ hj]
  simp only [placeBits, BitVec.getLsbD_and, BitVec.getLsbD_not, decide_eq_true hj, Bool.true_and]
  cases ho : o.getLsbD j <;> cases hc : clr.getLsbD j <;> simp_all [deriveBits]

/-- A bank without a 1 at an Output pin of a register has no bit in common with that register's mask (R141). -/
theorem get_and_outMask_eq_zero {k : Bank} {f : FselRegs} {r : Fin 2}
    (h : ∀ p, bankReg p = r → isOutput f p = true → Bank.bit k p = false) : Bank.get k r &&& outMask f r = 0 := by
  refine BitVec.eq_of_getLsbD_eq fun j hj => ?_
  rw [BitVec.getLsbD_and, BitVec.ofNat_eq_ofNat, BitVec.getLsbD_zero]
  rcases pin_or_noPin r j hj with ⟨p, rfl, rfl⟩ | hno
  · rw [outMask, getLsbD_maskOf_pin]
    cases hout : isOutput f p with
    | true => exact (Bool.and_true _).trans (h p rfl hout)
    | false => exact Bool.and_false _
  · rw [outMask, getLsbD_maskOf_noPin _ hno, Bool.and_false]

/-- What a derive pass does to registers `r` of the three banks where no CLR bit of an Output pin is 1. -/
theorem deriveRegs_banks_of_no_clr (tie : Bool) {f : RegFile} {r : Fin 2}
    (h : ∀ p, bankReg p = r → isOutput f.fsel p = true → Bank.bit f.gpclr p = false) :
    Bank.get (deriveRegs tie f).outstate r = Bank.get f.outstate r ||| (Bank.get f.gpset r &&& outMask f.fsel r) ∧
    Bank.get (deriveRegs tie f).gpset r = Bank.get f.gpset r &&& ~~~outMask f.fsel r ∧
    Bank.get (deriveRegs tie f).gpclr r = Bank.get f.gpclr r := by
  have hbanks := (deriveRegs_effect tie f).banks r
  rw [deriveMasked_of_no_clr tie (get_and_outMask_eq_zero h)] at hbanks
  simpa only [Prod.mk.injEq] using hbanks

/-- What it does to them where no SET bit of an Output pin is 1. -/
theorem deriveRegs_banks_of_no_set (tie : Bool) {f : RegFile} {r : Fin 2}
    (h : ∀ p, bankReg p = r → isOutput f.fsel p = true → Bank.bit f.gpset p = false) :
    Bank.get (deriveRegs tie f).outstate r = Bank.get f.outstate r &&& ~~~(Bank.get f.gpclr r &&& outMask f.fsel r) ∧
    Bank.get (deriveRegs tie f).gpset r = Bank.get f.gpset r ∧
    Bank.get (deriveRegs tie f).gpclr r = Bank.get f.gpclr r &&& ~~~outMask f.fsel r := by
  have hbanks := (deriveRegs_effect tie f).banks r
  rw [deriveMasked_of_no_set tie (get_and_outMask_eq_zero h)] at hbanks
  simpa only [Prod.mk.injEq] using hbanks

/-! The set and clear writes. -/

theorem writeReg_setNetEffect (r : Fin 2) (width value : Nat) (s : State) :
    SetNetEffect r value s (writeReg (.gpset r) width value s) := by
  intro hclr
  have hbanks := deriveRegs_banks_of_no_clr s.params.tieClearsClr
    (f := RegFile.write { s.regs with wcount := s.regs.wcount + 1 } (.gpset r) (trunc32 value)) hclr
  rw [writeReg_regs]
  simpa only [RegFile.write, Bank.get_put_same] using hbanks

theorem writeReg_clrNetEffect (r : Fin 2) (width value : Nat) (s : State) :
    ClrNetEffect r value s (writeReg (.gpclr r) width value s) := by
  intro hset
  obtain ⟨hout, hset', hclr'⟩ := deriveRegs_banks_of_no_set s.params.tieClearsClr
    (f := RegFile.write { s.regs with wcount := s.regs.wcount + 1 } (.gpclr r) (trunc32 value)) hset
  rw [writeReg_regs]
  simp only [RegFile.write, Bank.get_put_same] at hout hset' hclr' ⊢
  exact ⟨hout, hclr', hset'⟩

/-- Settles O37: each row is a `WriteRow` at its offset, and its net effect is that of the write of its bank (R217 to R220). -/
theorem setAndClearWrites : Obligations.SetAndClearWrites := by
  unfold Obligations.SetAndClearWrites
  refine ⟨⟨writeRow_of_writable 0x1c (.gpset 0) rfl rfl, fun width value s => ⟨_, rfl, ?_⟩⟩,
    ⟨writeRow_of_writable 0x20 (.gpset 1) rfl rfl, fun width value s => ⟨_, rfl, ?_⟩⟩,
    ⟨writeRow_of_writable 0x28 (.gpclr 0) rfl rfl, fun width value s => ⟨_, rfl, ?_⟩⟩,
    ⟨writeRow_of_writable 0x2c (.gpclr 1) rfl rfl, fun width value s => ⟨_, rfl, ?_⟩⟩⟩
  · exact writeReg_setNetEffect 0 width value s
  · exact writeReg_setNetEffect 1 width value s
  · exact writeReg_clrNetEffect 0 width value s
  · exact writeReg_clrNetEffect 1 width value s

/-! The same write twice (R81). -/

/-- What a derive pass leaves is determined by its effect. -/
theorem DeriveEffect.eq {tie : Bool} {f g h : RegFile} (hg : DeriveEffect tie f g) (hh : DeriveEffect tie f h) : g = h := by
  have hbanks (r : Fin 2) : Bank.get g.outstate r = Bank.get h.outstate r ∧ Bank.get g.gpset r = Bank.get h.gpset r ∧
      Bank.get g.gpclr r = Bank.get h.gpclr r := by
    simpa only [Prod.mk.injEq] using (hg.banks r).trans (hh.banks r).symm
  have hout : g.outstate = h.outstate := Bank.eq_of_get fun r => (hbanks r).1
  have hset : g.gpset = h.gpset := Bank.eq_of_get fun r => (hbanks r).2.1
  have hclr : g.gpclr = h.gpclr := Bank.eq_of_get fun r => (hbanks r).2.2
  rw [hg.frame, hh.frame, hout, hset, hclr]

theorem Bank.get_put (k : Bank) (r q : Fin 2) (v : Word) : (k.put r v).get q = if q = r then v else k.get q := by
  by_cases h : q = r
  · rw [if_pos h, h, Bank.get_put_same]
  · rw [if_neg h, Bank.get_put_of_ne k v h]

/-- Setting again what was set, or what of it was kept, raises nothing further and keeps the same. -/
theorem deriveMasked_set_again (tie : Bool) {o clr : Word} (hclr : clr &&& o = 0) (set out : Word) {set' : Word}
    (h : set' = set ∨ set' = set &&& ~~~o) :
    deriveMasked tie o set' clr (out ||| (set &&& o)) = (out ||| (set &&& o), set &&& ~~~o, clr) := by
  rw [deriveMasked_of_no_clr tie hclr]
  rcases h with rfl | rfl
  · rw [BitVec.or_assoc, BitVec.or_self]
  · simp [BitVec.and_assoc]

/-- Clearing again what was cleared, or what of it was kept, drops nothing further and keeps the same. -/
theorem deriveMasked_clear_again (tie : Bool) {o set : Word} (hset : set &&& o = 0) (clr out : Word) {clr' : Word}
    (h : clr' = clr ∨ clr' = clr &&& ~~~o) :
    deriveMasked tie o set clr' (out &&& ~~~(clr &&& o)) = (out &&& ~~~(clr &&& o), set, clr &&& ~~~o) := by
  rw [deriveMasked_of_no_set tie hset]
  rcases h with rfl | rfl
  · rw [BitVec.and_assoc, BitVec.and_self]
  · have hnone : clr &&& ~~~o &&& o = 0#32 := by simp [BitVec.and_assoc]
    rw [hnone, BitVec.not_zero, BitVec.and_allOnes, BitVec.and_assoc clr, BitVec.and_self]

/-- Writing to a register what it holds changes nothing. -/
theorem RegFile.write_of_read_eq {f : RegFile} {reg : Reg} {v : Word} (h : f.read reg = v) : f.write reg v = f := by
  refine RegFile.eq_of_read (fun reg' => ?_) (RegFile.write_outstate f reg _) (RegFile.write_wcount f reg _)
  by_cases hreg : reg' = reg
  · rw [hreg, RegFile.read_write_same, h]
  · exact RegFile.read_write_of_ne f _ hreg

theorem RegFile.read_withCount (f : RegFile) (n : Nat) (reg : Reg) : RegFile.read { f with wcount := n } reg = f.read reg := by
  cases reg <;> rfl

/-- A derive pass changes no bus-addressable register but those of SET and CLR (R155). -/
theorem read_deriveRegs {reg : Reg} (h : ∀ r, reg ≠ .gpset r ∧ reg ≠ .gpclr r) (tie : Bool) (f : RegFile) :
    (deriveRegs tie f).read reg = f.read reg := by
  rw [deriveRegs_frame]
  cases reg with
  | gpset r => exact absurd rfl (h r).1
  | gpclr r => exact absurd rfl (h r).2
  | _ => rfl

/-- A register other than SET and CLR holds the value after the first write, and the first pass left nothing to consume. -/
theorem deriveRegs_write_again_of_kept {reg : Reg} (hreg : ∀ r, reg ≠ .gpset r ∧ reg ≠ .gpclr r) (f : RegFile) (v : Word) (n : Nat) :
    deriveRegs true (RegFile.write { deriveRegs true (f.write reg v) with wcount := n } reg v) =
      { deriveRegs true (f.write reg v) with wcount := n } := by
  have hread : RegFile.read { deriveRegs true (f.write reg v) with wcount := n } reg = v := by
    rw [RegFile.read_withCount, read_deriveRegs hreg, RegFile.read_write_same]
  rw [RegFile.write_of_read_eq hread]
  exact deriveRegs_of_consumed true ((oneShotsConsumed_deriveRegs _).congr rfl rfl rfl)

theorem deriveRegs_write_again_of_set {f : RegFile} (h : OneShotsConsumed f) (r : Fin 2) (v : Word) (n : Nat) :
    deriveRegs true (RegFile.write { deriveRegs true (f.write (.gpset r) v) with wcount := n } (.gpset r) v) =
      { deriveRegs true (f.write (.gpset r) v) with wcount := n } := by
  refine (deriveRegs_effect true _).eq ⟨fun q => ?_, rfl⟩
  have hclr : ∀ p, bankReg p = q → isOutput f.fsel p = true → Bank.bit f.gpclr p = false := fun p _ hout => (h p hout).2
  obtain ⟨hout', hset', hclr'⟩ := deriveRegs_banks_of_no_clr true (f := f.write (.gpset r) v) hclr
  simp only [RegFile.write, deriveRegs_fsel, Bank.get_put] at hout' hset' hclr' ⊢
  rw [hout', hset', hclr', deriveMasked_set_again true (get_and_outMask_eq_zero hclr)]
  by_cases hq : q = r
  · simp only [if_pos hq, true_or]
  · simp only [if_neg hq, or_true]

theorem deriveRegs_write_again_of_clr {f : RegFile} (h : OneShotsConsumed f) (r : Fin 2) (v : Word) (n : Nat) :
    deriveRegs true (RegFile.write { deriveRegs true (f.write (.gpclr r) v) with wcount := n } (.gpclr r) v) =
      { deriveRegs true (f.write (.gpclr r) v) with wcount := n } := by
  refine (deriveRegs_effect true _).eq ⟨fun q => ?_, rfl⟩
  have hset : ∀ p, bankReg p = q → isOutput f.fsel p = true → Bank.bit f.gpset p = false := fun p _ hout => (h p hout).1
  obtain ⟨hout', hset', hclr'⟩ := deriveRegs_banks_of_no_set true (f := f.write (.gpclr r) v) hset
  simp only [RegFile.write, deriveRegs_fsel, Bank.get_put] at hout' hset' hclr' ⊢
  rw [hout', hset', hclr', deriveMasked_clear_again true (get_and_outMask_eq_zero hset)]
  by_cases hq : q = r
  · simp only [if_pos hq, true_or]
  · simp only [if_neg hq, or_true]

/-- A register file derived after a write, its counter anything, is what the same write and pass make of it again. -/
theorem deriveRegs_write_again {f : RegFile} (h : OneShotsConsumed f) (reg : Reg) (v : Word) (n : Nat) :
    deriveRegs true (RegFile.write { deriveRegs true (f.write reg v) with wcount := n } reg v) =
      { deriveRegs true (f.write reg v) with wcount := n } := by
  cases reg with
  | gpset r => exact deriveRegs_write_again_of_set h r v n
  | gpclr r => exact deriveRegs_write_again_of_clr h r v n
  | _ =>
    refine deriveRegs_write_again_of_kept (fun _ => ?_) f v n
    exact ⟨nofun, nofun⟩

/-- Settles O41: at a bad offset each of the two writes counts and no more; at a register the second finds what the first left. -/
theorem secondIdenticalWriteChangesNoRegister : Obligations.SecondIdenticalWriteChangesNoRegister := by
  unfold Obligations.SecondIdenticalWriteChangesNoRegister
  intro offset width value s htie h
  refine ⟨_, _, _, rfl, exec_decodeWrite offset width value s, exec_decodeWrite offset width value _, ?_⟩
  cases hw : writable offset with
  | none =>
    have hconsumed := oneShotsConsumed_busWritePath offset value htie h
    rw [busWritePath_of_bad hw width] at hconsumed ⊢
    rw [busWritePath_of_bad hw width, writeBad_regs_of_consumed offset width value hconsumed]
  | some reg =>
    have hfirst : (writeReg reg width value s).regs =
        deriveRegs true (RegFile.write { s.regs with wcount := s.regs.wcount + 1 } reg (trunc32 value)) := by
      rw [writeReg_regs, htie]
    have hparams : (writeReg reg width value s).params = s.params := by
      rw [← busWritePath_of_writable hw width, busWritePath_params]
    rw [busWritePath_of_writable hw width, busWritePath_of_writable hw width, writeReg_regs, hparams, htie, hfirst]
    have hcounted : OneShotsConsumed { s.regs with wcount := s.regs.wcount + 1 } := h.congr rfl rfl rfl
    exact deriveRegs_write_again hcounted reg (trunc32 value) _

end Sys2Proof.Machine
end

section
/-! The shared bridge beside a quiet agent (20_memory.md R90, 42_shared_bridge.md R164), the record after a bus write (R56), a line level
before a bus read (R322), and a torn read (R93). -/

namespace Sys2Proof.Machine

/-! The bytes of a word that is read. -/

theorem byteOf_wordOf (b0 b1 b2 b3 : Byte) :
    byteOf (wordOf b0 b1 b2 b3) 0 = b0 ∧ byteOf (wordOf b0 b1 b2 b3) 1 = b1 ∧
    byteOf (wordOf b0 b1 b2 b3) 2 = b2 ∧ byteOf (wordOf b0 b1 b2 b3) 3 = b3 := by
  refine ⟨?_, ?_, ?_, ?_⟩ <;> refine BitVec.eq_of_getLsbD_eq fun j hj => ?_ <;>
    simp only [byteOf, wordOf, BitVec.getLsbD_extractLsb', BitVec.getLsbD_append, decide_eq_true hj, Bool.true_and]
  · simp [hj]
  · simp [hj]
  · simp [hj, show ¬ 16 + j < 8 by omega, show 16 + j - 8 - 8 = j by omega, show ¬ 16 + j - 8 < 8 by omega]
  · simp [show ¬ 24 + j < 8 by omega, show ¬ 24 + j - 8 < 8 by omega, show ¬ 24 + j - 8 - 8 < 8 by omega,
      show 24 + j - 8 - 8 - 8 = j by omega]

/-- A byte inside a word that is read is that word's byte in the byte order of the host (R77). -/
theorem Memory.storedByte_readWord (m : Memory) (e : Config.Endian) (a : Nat) {k : Nat} (hk : k < 4) :
    storedByte e (Memory.readWord m e a) k = Memory.get m (a + k) := by
  interval_cases k <;> cases e <;> simp [storedByte, Memory.readWord, byteOf_wordOf]

/-- Records of the same byte order that agree on a field agree on its four bytes (R76). -/
theorem get_eq_of_shmRead_eq {s t : State} (hp : s.params = t.params) {f : ShmField} (h : s.shmRead f = t.shmRead f) {a : Nat}
    (hle : f.addr ≤ a) (hlt : a < f.addr + 4) : Memory.get s.shm a = Memory.get t.shm a := by
  obtain ⟨k, rfl⟩ := Nat.exists_eq_add_of_le hle
  have hk : k < 4 := by omega
  rw [← Memory.storedByte_readWord s.shm s.params.shmEndian f.addr hk, ← Memory.storedByte_readWord t.shm t.params.shmEndian f.addr hk]
  unfold State.shmRead at h
  rw [h, hp]

/-! The push. -/

theorem noStoreTo_of_quiet {s : State} (h : s.bursts = []) (f : ShmField) (n : Nat) : noStoreTo f n s := by
  intro burst hmem
  rw [h, List.take_nil] at hmem
  exact absurd hmem List.not_mem_nil

theorem noStoreTo_congr {s t : State} (h : t.bursts = s.bursts) (f : ShmField) (n : Nat) : noStoreTo f n t ↔ noStoreTo f n s := by
  unfold noStoreTo
  rw [h]

/-- What a quiet push leaves of a byte depends on nothing but the registers, the byte order and, outside the pushed fields, the byte itself. -/
theorem get_push_congr_of_quiet {s t : State} (hs : s.bursts = []) (ht : t.bursts = []) (hregs : s.regs = t.regs)
    (hparams : s.params = t.params) (hvalid : s.bridgeValid = t.bridgeValid) (hshm : s.shm = t.shm) (a : Nat) :
    Memory.get s.push.shm a = Memory.get t.push.shm a := by
  have S := push_effect s
  have T := push_effect t
  cases hv : s.bridgeValid
  case false => rw [S.skipped hv, T.skipped (hvalid ▸ hv), hshm]
  case true =>
    have hv' : t.bridgeValid = true := hvalid ▸ hv
    by_cases hout : ∀ f ∈ pushedFields, a < f.addr ∨ f.addr + 4 ≤ a
    case pos => rw [S.bytes hv a hout, T.bytes hv' a hout, turns_quiet 8 hs, turns_quiet 8 ht, hshm]
    case neg =>
      push Not at hout
      obtain ⟨f, hf, hle, hlt⟩ := hout
      refine get_eq_of_shmRead_eq (by rw [push_params, push_params, hparams]) ?_ hle hlt
      rw [S.fields hv f hf (noStoreTo_of_quiet hs f 8), T.fields hv' f hf (noStoreTo_of_quiet ht f 8), hregs]

/-- Settles O25: the two pushes differ in the order list alone, on which no byte depends (R90). -/
theorem pushOrderDoesNotShowAfterwards : Obligations.PushOrderDoesNotShowAfterwards := by
  unfold Obligations.PushOrderDoesNotShowAfterwards
  intro s order order' hquiet
  exact ⟨_, _, exec_push _, exec_push _, get_push_congr_of_quiet hquiet hquiet rfl rfl rfl rfl⟩

theorem fsel_mem_pushedFields (n : Fin 6) : .fsel n ∈ pushedFields := by
  revert n
  decide

theorem outstate_mem_pushedFields (r : Fin 2) : .outstate r ∈ pushedFields := by
  revert r
  decide

/-- After a bus write whose push ran, a pushed field the agent left alone holds the register's value (R56, R160, R210). -/
theorem shmRead_busWritePath {offset : Nat} {s : State} (hr : runsPasses offset s = true) (hv : s.bridgeValid = true)
    (value : Nat) {f : ShmField} (hf : f ∈ pushedFields) (hn : noStoreTo f 8 s) :
    (busWritePath offset value s).shmRead f = pushedValue (busWritePath offset value s).regs f := by
  have hstart : ((beforeDerive offset value s).derive.deliver .nothing).bridgeValid = s.bridgeValid ∧
      ((beforeDerive offset value s).derive.deliver .nothing).bursts = s.bursts := by
    rw [beforeDerive_frame]
    exact ⟨rfl, rfl⟩
  rw [busWritePath_of_runs hr, push_regs]
  exact (push_effect _).fields (hstart.1.trans hv) f hf ((noStoreTo_congr hstart.2 f 8).mpr hn)

/-- A state whose record holds its function-select registers, the first of which is not 0. -/
def recordedState : State :=
  { State.reset with regs := { RegFile.zero with fsel := ⟨1, 0, 0, 0, 0, 0⟩ }, shm := [(0, 1)] }

/-- Settles O26: the write by `shmRead_busWritePath`, and a reset of a state whose record and registers were equal and not 0 (R56, R321). -/
theorem recordMatchesAfterAWrite : Obligations.RecordMatchesAfterAWrite := by
  unfold Obligations.RecordMatchesAfterAWrite
  refine ⟨fun offset width value s hr hv hn => ⟨_, _, rfl, exec_decodeWrite offset width value s, fun n => ?fsel, fun r => ?outstate⟩,
    recordedState, _, ?recorded, exec_reset recordedState, ?lost⟩
  case fsel => exact shmRead_busWritePath hr hv value (fsel_mem_pushedFields n) (hn _ (fsel_mem_pushedFields n))
  case outstate => exact shmRead_busWritePath hr hv value (outstate_mem_pushedFields r) (hn _ (outstate_mem_pushedFields r))
  case recorded => decide
  case lost => decide

/-! The pull. -/

theorem getLsbD_pullMasked (i level v : Word) {j : Nat} (hj : j < 32) :
    (pullMasked i level v).getLsbD j = if i.getLsbD j then v.getLsbD j else level.getLsbD j := by
  simp only [pullMasked, BitVec.getLsbD_or, BitVec.getLsbD_and, BitVec.getLsbD_not, decide_eq_true hj, Bool.true_and]
  cases i.getLsbD j <;> simp

/-- An Input pin's bit after a quiet pull is the shared field's (R163, R164). -/
theorem pull_level_input_of_quiet {s : State} (hv : s.bridgeValid = true) (hquiet : s.bursts = []) {p : Pin}
    (hin : isInput s.regs.fsel p = true) :
    Bank.bit s.pull.regs.level p = (s.shmRead (.level (bankReg p))).getLsbD (bankBit p) := by
  rw [(pull_effect s).input hv p hin, turns_quiet _ hquiet]

/-- The same with the bridge valid or not (R166). -/
theorem pull_level_of_quiet {s : State} (hquiet : s.bursts = []) {p : Pin} (hin : isInput s.regs.fsel p = true) :
    Bank.bit s.pull.regs.level p =
      if s.bridgeValid then (s.shmRead (.level (bankReg p))).getLsbD (bankBit p) else Bank.bit s.regs.level p := by
  cases hv : s.bridgeValid with
  | true => exact pull_level_input_of_quiet hv hquiet hin
  | false => rw [(pull_effect s).skipped hv]; rfl

/-- Settles O28: at each place the mask form does what the pull does to the pin there, or to the bit of no pin (R141, R164). -/
theorem quietPullInMaskForm : Obligations.QuietPullInMaskForm := by
  unfold Obligations.QuietPullInMaskForm
  intro s hv hquiet
  refine ⟨s.pull, exec_pull s, fun r => BitVec.eq_of_getLsbD_eq fun j hj => ?level, ?frame⟩
  case level =>
    rw [getLsbD_pullMasked _ _ _ hj, inMask]
    rcases pin_or_noPin r j hj with ⟨p, rfl, rfl⟩ | hno
    · rw [getLsbD_maskOf_pin]
      cases hin : isInput s.regs.fsel p with
      | true => exact pull_level_input_of_quiet hv hquiet hin
      | false => exact pull_level_kept hin
    · rw [getLsbD_maskOf_noPin _ hno]
      exact pull_level_noPin s hno
  case frame =>
    have hframe := (pull_effect s).frame hv
    rw [turns_quiet _ hquiet] at hframe
    exact hframe

/-- Settles O43: the pull of the read overwrites the bit of the Input pin, unless it is skipped (R163, R166, R322). -/
theorem lineLevelDoesNotSurviveARead : Obligations.LineLevelDoesNotSurviveARead := by
  unfold Obligations.LineLevelDoesNotSurviveARead
  intro p level offset width s hcode hquiet
  refine ⟨_, _, _, exec_line_of_input hcode level, rfl, exec_decodeRead offset width _, ?_⟩
  have hbit : Bank.bit (Bank.setBit s.regs.level p level) p = level := (Bank.bit_setBit _ p p level).trans (if_pos rfl)
  rw [busReadPath_regs, pull_level_of_quiet, hbit]
  · rfl
  · exact hquiet
  · exact isInput_iff.mpr hcode

/-! A torn read. -/

/-- A stuck set request of pin 0, and an agent that loads FSEL[0] and OUTSTATE[0] between the first two stores of the next push. -/
def tornState : State :=
  { State.reset with regs := { RegFile.zero with gpset := ⟨1, 0⟩ }
                     bursts := [[], [.load (.fsel 0), .load (.outstate 0)]] }

/-- The state after the write of FSEL[0] that makes pin 0 Output. -/
def tornWrite : State := writeReg (.fsel 0) 4 1 tornState

theorem tornWrite_fsel : FselRegs.get tornWrite.regs.fsel 0 = 1 := by
  rw [tornWrite, writeReg_regs, deriveRegs_fsel]
  rfl

/-- The write applies the stuck request (R158). -/
theorem tornWrite_outstate : Bank.bit tornWrite.regs.outstate 0 = true := by
  rw [tornWrite, writeReg_regs]
  exact (bitsAt_eq_iff.mp (bitsAt_deriveRegs_of_set _ (by decide) (by decide))).1

set_option maxRecDepth 100000 in
/-- What the agent's two loads returned: the new word of a field already stored, the old word of one still to be stored. -/
theorem tornWrite_extSeen : tornWrite.extSeen = [(.fsel 0, 1), (.outstate 0, 0)] := rfl

/-- Settles O59: the agent loads FSEL[0] after its store and OUTSTATE[0] before its own, and the write changed both (R93). -/
theorem aTornReadIsPossible : Obligations.ATornReadIsPossible := by
  unfold Obligations.ATornReadIsPossible
  refine ⟨tornState, tornWrite, rfl, rfl, ?seen, ?fsel, ?outstate⟩
  case seen =>
    rw [tornWrite_fsel]
    exact tornWrite_extSeen
  case fsel =>
    rw [tornWrite_fsel]
    decide
  case outstate =>
    intro hkept
    have hrose : (Bank.get tornWrite.regs.outstate 0).getLsbD 0 = true := tornWrite_outstate
    rw [hkept] at hrose
    exact absurd hrose (by decide)

end Sys2Proof.Machine
end

section
/-! SNAPLOAD (70_reset_and_hazards.md R311), and a snapshot saved and loaded again (R326). -/

namespace Sys2Proof.Machine

theorem exec_snapload (fields : SnapFields) (s : State) :
    exec (.snapload fields) s = .next { s with regs := loadSnap s.regs fields, result := .nothing } := rfl

/-- The registers after a SNAPLOAD are the words of the snapshot, in R50's order. -/
theorem map_read_loadSnap (f : RegFile) (x : SnapFields) : snapRegs.map (RegFile.read (loadSnap f x)) = wordsOfSnap x := rfl

theorem decode_snapLoad_of_length {words : List Word} (h : words.length = 29) :
    ∃ x, decode (.snapLoad words) = .ok (.snapload x) ∧ wordsOfSnap x = words := by
  obtain ⟨x, hx, hwords⟩ := snapOfWords_of_length h
  exact ⟨x, by rw [decode, decodeSnapLoad, hx], hwords⟩

/-- A snapshot that has not 29 words is refused (R311; notes/assumptions/20.md). -/
theorem decode_snapLoad_of_length_ne {words : List Word} (h : words.length ≠ 29) :
    decode (.snapLoad words) = .error (.snapshotLength words.length) := by
  have hnone : snapOfWords words = none := by
    unfold snapOfWords
    split
    · exact absurd rfl h
    · rfl
  rw [decode, decodeSnapLoad, hnone]

/-- Settles O47: the 29 words are a snapshot whose words they are, and the load overwrites the registers with it. -/
theorem snapLoadOverwritesTheRegisters : Obligations.SnapLoadOverwritesTheRegisters := by
  unfold Obligations.SnapLoadOverwritesTheRegisters
  refine ⟨fun words s h => ?_, fun words => decode_snapLoad_of_length_ne⟩
  obtain ⟨x, hdec, hwords⟩ := decode_snapLoad_of_length h
  exact ⟨x, _, hdec, exec_snapload x s, (map_read_loadSnap s.regs x).trans hwords, rfl, rfl, rfl⟩

/-- Settles O48: the snapshot of a register file, loaded over another, is that file but for OUTSTATE and WCOUNT. -/
theorem snapshotRoundTripLosesTheOutputs : Obligations.SnapshotRoundTripLosesTheOutputs := by
  unfold Obligations.SnapshotRoundTripLosesTheOutputs
  intro s s'
  exact ⟨snapOf s.regs, _, _, exec_snapsave s, rfl, exec_snapload _ s', rfl⟩

end Sys2Proof.Machine
end

section
/-! What may change in a step and by which event (10_state.md sections 2, 4, 5 and 7), and that every admitted event has a next state
(60_exceptions.md section 4). Each is a case analysis of `StepTo`. -/

namespace Sys2Proof.Machine

/-! The derived levels (R52). -/

/-- A derive pass that changes the level of a pin found it Output, with a set request that raised it or a clear request alone that dropped it. -/
theorem outstate_deriveRegs_of_ne {tie : Bool} {f : RegFile} {p : Pin}
    (h : Bank.bit (deriveRegs tie f).outstate p ≠ Bank.bit f.outstate p) :
    isOutput f.fsel p = true ∧
      (Bank.bit f.gpset p = true ∧ Bank.bit (deriveRegs tie f).outstate p = true ∨
        Bank.bit f.gpset p = false ∧ Bank.bit f.gpclr p = true ∧ Bank.bit (deriveRegs tie f).outstate p = false) := by
  have hidle : ¬ (isOutput f.fsel p = false ∨ (Bank.bit f.gpset p = false ∧ Bank.bit f.gpclr p = false)) :=
    fun hidle => h (bitsAt_eq_iff.mp (bitsAt_deriveRegs_of_idle tie hidle)).1
  rw [not_or, Bool.not_eq_false] at hidle
  obtain ⟨hout, hrequest⟩ := hidle
  refine ⟨hout, ?_⟩
  cases hset : Bank.bit f.gpset p with
  | true => exact .inl ⟨rfl, (bitsAt_eq_iff.mp (bitsAt_deriveRegs_of_set tie hout hset)).1⟩
  | false =>
    have hclr : Bank.bit f.gpclr p = true := eq_true_of_ne_false fun hclr => hrequest ⟨hset, hclr⟩
    exact .inr ⟨rfl, hclr, (bitsAt_eq_iff.mp (bitsAt_deriveRegs_of_clr tie hout hset hclr)).1⟩

/-- A bus write that changes a derived level ran its derive pass on the assigned register file. -/
theorem outstate_busWritePath_of_ne {offset value : Nat} {s : State} {p : Pin}
    (h : Bank.bit (busWritePath offset value s).regs.outstate p ≠ Bank.bit s.regs.outstate p) :
    runsPasses offset s = true ∧
      (busWritePath offset value s).regs = deriveRegs s.params.tieClearsClr (beforeDerive offset value s).regs := by
  cases hr : runsPasses offset s with
  | true => exact ⟨rfl, busWritePath_regs_of_runs hr value⟩
  | false =>
    rw [busWritePath_regs_of_not_runs hr, beforeDerive_outstate] at h
    exact absurd rfl h

theorem Bank.bit_zero (p : Pin) : Bank.bit .zero p = false := by
  rw [Bank.bit, Bank.get_zero]
  exact BitVec.getLsbD_zero

/-- The state at the start of a write's derive pass has the same registers whatever inputs are pending. -/
theorem beforeDerive_withPending (offset value : Nat) (s : State) (rest : List Input) :
    (beforeDerive offset value (s.withPending rest)).regs = (beforeDerive offset value s).regs := by
  cases h : writable offset with
  | some reg => rw [beforeDerive_of_writable h, beforeDerive_of_writable h]; rfl
  | none => rw [beforeDerive_of_bad h, beforeDerive_of_bad h]; rfl

/-- Settles O53: OUTSTATE is written by a derive pass, zeroed by a reset and replaced by an INIT, and by nothing else. -/
theorem outputLevelsChangeOnlyInDerive : Obligations.OutputLevelsChangeOnlyInDerive := by
  unfold Obligations.OutputLevelsChangeOnlyInDerive
  intro s t p hstep hne
  obtain ⟨inputs, hp, hto⟩ := stepTo_of_step hstep
  cases hto with
  | idle | snapSave rest | snapLoad words fields rest => exact absurd rfl hne
  | ext a rest => rw [extAccess_withPending_frame] at hne; exact absurd rfl hne
  | busRead offset width rest => rw [busReadPath_regs, pull_outstate] at hne; exact absurd rfl hne
  | line pin level q rest => rw [lineState_regs] at hne; exact absurd rfl hne
  | reset rest => exact ⟨_, rest, hp, .inl ⟨rfl, Bank.bit_zero p⟩⟩
  | init attach rest _ => exact ⟨_, rest, hp, .inr (.inl ⟨attach, rfl⟩)⟩
  | busWrite offset width value rest =>
    obtain ⟨hr, hregs⟩ := outstate_busWritePath_of_ne hne
    rw [hregs, beforeDerive_withPending] at hne ⊢
    rw [← beforeDerive_outstate offset value s] at hne
    exact ⟨_, rest, hp, .inr (.inr ⟨offset, width, value, rfl, hr, outstate_deriveRegs_of_ne hne⟩)⟩

/-! The level bit of a pin that is not Input (R54). -/

/-- A line event changes the level bit of an Input pin alone (R261). -/
theorem lineState_level_kept {p q : Pin} {s : State} (hq : isInput s.regs.fsel q = false) (level : Bool) :
    Bank.bit (lineState p level s).regs.level q = Bank.bit s.regs.level q := by
  unfold lineState
  split
  case isTrue hin =>
    have hne : q ≠ p := fun he => Bool.false_ne_true (hq.symm.trans (he ▸ hin))
    exact (Bank.bit_setBit s.regs.level p q level).trans (if_neg hne)
  case isFalse => rfl

/-- Settles O54: a pull and a line event write level bits of Input pins alone, and a bus write writes none. -/
theorem levelOfANonInputPinIsFrozen : Obligations.LevelOfANonInputPinIsFrozen := by
  unfold Obligations.LevelOfANonInputPinIsFrozen
  intro s t p hstep hin hne
  obtain ⟨inputs, hp, hto⟩ := stepTo_of_step hstep
  cases hto with
  | idle | snapSave rest => exact absurd rfl hne
  | ext a rest => rw [extAccess_withPending_frame] at hne; exact absurd rfl hne
  | busRead offset width rest =>
    rw [busReadPath_regs, pull_level_kept (s := s.withPending rest) hin] at hne
    exact absurd rfl hne
  | busWrite offset width value rest => rw [busWritePath_level] at hne; exact absurd rfl hne
  | line pin level q rest => exact absurd (lineState_level_kept (s := s.withPending rest) hin _) hne
  | reset rest => exact ⟨_, rest, hp, .inl rfl⟩
  | snapLoad words fields rest => exact ⟨_, rest, hp, .inr (.inl ⟨words, rfl⟩)⟩
  | init attach rest _ => exact ⟨_, rest, hp, .inr (.inr ⟨attach, rfl⟩)⟩

/-! The function-select and storage-only registers (R23, R39). -/

/-- A change of LEVEL is no change of another register. -/
theorem RegFile.read_withLevel {reg : Reg} (h : ∀ r, reg ≠ .level r) (f : RegFile) (k : Bank) :
    RegFile.read { f with level := k } reg = f.read reg := by
  cases reg with
  | level r => exact absurd rfl (h r)
  | _ => rfl

/-- A bus write leaves every register but LEVEL, SET and CLR as its assignment does. -/
theorem read_busWritePath {reg : Reg} (h : ∀ r, reg ≠ .gpset r ∧ reg ≠ .gpclr r) (offset value : Nat) (s : State) :
    (busWritePath offset value s).regs.read reg = (beforeDerive offset value s).regs.read reg := by
  cases hr : runsPasses offset s
  · rw [busWritePath_regs_of_not_runs hr]
  · rw [busWritePath_regs_of_runs hr, read_deriveRegs h]

/-- The assignment of a bus write changes the register of its offset, and that to the value written (R125, R210). -/
theorem read_beforeDerive_of_ne {offset value : Nat} {s : State} {reg : Reg}
    (h : (beforeDerive offset value s).regs.read reg ≠ s.regs.read reg) :
    writable offset = some reg ∧ (beforeDerive offset value s).regs.read reg = trunc32 value := by
  cases hw : writable offset with
  | none =>
    rw [beforeDerive_of_bad hw] at h
    exact absurd (RegFile.read_withCount _ _ reg) h
  | some target =>
    rw [beforeDerive_of_writable hw] at h ⊢
    by_cases heq : reg = target
    case pos =>
      subst heq
      exact ⟨rfl, RegFile.read_write_same _ reg _⟩
    case neg =>
      exact absurd ((RegFile.read_write_of_ne _ _ heq).trans (RegFile.read_withCount _ _ reg)) h

/-- Settles O55: of the events that leave the register file's other parts alone only the assignment of a bus write reaches these registers. -/
theorem registersChangeOnlyByTheirOwnWrite : Obligations.RegistersChangeOnlyByTheirOwnWrite := by
  unfold Obligations.RegistersChangeOnlyByTheirOwnWrite
  intro s t reg hstep hreg hne
  have hlevel (r : Fin 2) : reg ≠ .level r := (hreg r).2.2
  have hrequest (r : Fin 2) : reg ≠ .gpset r ∧ reg ≠ .gpclr r := ⟨(hreg r).1, (hreg r).2.1⟩
  obtain ⟨inputs, hp, hto⟩ := stepTo_of_step hstep
  cases hto with
  | idle | snapSave rest => exact absurd rfl hne
  | ext a rest => rw [extAccess_withPending_frame] at hne; exact absurd rfl hne
  | busRead offset width rest =>
    rw [busReadPath_regs, read_pull_of_not_level hlevel] at hne
    exact absurd rfl hne
  | line pin level q rest =>
    rw [lineState_regs, RegFile.read_withLevel hlevel] at hne
    exact absurd rfl hne
  | reset rest => exact ⟨_, rest, hp, .inl rfl⟩
  | snapLoad words fields rest => exact ⟨_, rest, hp, .inr (.inl ⟨words, rfl⟩)⟩
  | init attach rest _ => exact ⟨_, rest, hp, .inr (.inr (.inl ⟨attach, rfl⟩))⟩
  | busWrite offset width value rest =>
    rw [read_busWritePath hrequest] at hne ⊢
    obtain ⟨hw, hvalue⟩ := read_beforeDerive_of_ne hne
    exact ⟨_, rest, hp, .inr (.inr (.inr ⟨offset, width, value, rfl, hw, hvalue⟩))⟩

/-! What never changes, and what only grows (R41, R43, R45). -/

/-- Settles O56: no event but an INIT sets the bridge, and one has been performed; a record is only appended; the counter is counted up by a bus
write, zeroed by a reset and kept by every other event. -/
theorem bridgeFixedAndTraceOnlyGrows : Obligations.BridgeFixedAndTraceOnlyGrows := by
  unfold Obligations.BridgeFixedAndTraceOnlyGrows
  intro s t hinit hstep
  have hkept : ∃ records, s.diag = s.diag ++ records := ⟨[], (List.append_nil _).symm⟩
  obtain ⟨inputs, hp, hto⟩ := stepTo_of_step hstep
  cases hto with
  | idle | snapSave rest | snapLoad words fields rest => exact ⟨hinit, rfl, rfl, hkept, .inl (Nat.le_refl _)⟩
  | ext a rest => rw [extAccess_withPending_frame]; exact ⟨hinit, rfl, rfl, hkept, .inl (Nat.le_refl _)⟩
  | busRead offset width rest =>
    rw [busReadPath_inited, busReadPath_params, busReadPath_bridgeValid, busReadPath_regs, pull_wcount]
    exact ⟨hinit, rfl, rfl, busReadPath_diag offset (s.withPending rest), .inl (Nat.le_refl _)⟩
  | busWrite offset width value rest =>
    rw [busWritePath_inited, busWritePath_params, busWritePath_bridgeValid, busWritePath_wcount]
    exact ⟨hinit, rfl, rfl, busWritePath_diag offset value (s.withPending rest), .inl (Nat.le_succ _)⟩
  | line pin level p rest =>
    rw [lineState_frame, lineState_regs]
    exact ⟨hinit, rfl, rfl, hkept, .inl (Nat.le_refl _)⟩
  | reset rest => exact ⟨hinit, rfl, rfl, hkept, .inr ⟨rest, hp⟩⟩
  | init attach rest hi => exact absurd (hinit.symm.trans hi) (by decide)

/-! Every admitted event has a next state (R278). -/

/-- An operation completes, unless it is a second INIT (R278, R301). -/
theorem exec_completes {i : Instr} {s : State} (h : s.inited = false ∨ ∀ attach, i ≠ .init attach) : ∃ t, exec i s = .next t := by
  have hshape := exec_shape i s
  generalize exec i s = o at hshape
  cases hshape with
  | init attach =>
    have hi : s.inited = false := h.resolve_right fun hne => hne attach rfl
    exact ⟨_, exec_init_of_not_inited hi attach⟩
  | _ => exact ⟨_, rfl⟩

/-- What the decoder rejects: a pin out of range, a snapshot that has not 29 words, and what no port presents (R262, R311). -/
theorem decode_eq_error {e : Event} {err : DecodeError} (h : decode e = .error err) :
    (∃ pin level, e = .line pin level ∧ 54 ≤ pin) ∨
      (∃ words, e = .snapLoad words ∧ words.length ≠ 29) ∨ ∃ sel, e = .unlisted sel := by
  cases e with
  | line pin level =>
    refine .inl ⟨pin, level, rfl, Nat.not_lt.mp fun hlt => ?_⟩
    rw [decode_line ⟨pin, hlt⟩ level] at h
    cases h
  | snapLoad words =>
    refine .inr (.inl ⟨words, rfl, fun hlength => ?_⟩)
    obtain ⟨x, hdec, -⟩ := decode_snapLoad_of_length hlength
    rw [hdec] at h
    cases h
  | unlisted sel => exact .inr (.inr ⟨sel, rfl⟩)
  | busRead _ _ | busWrite _ _ _ | reset | init _ | snapSave => cases h

/-- Settles O57: the two lemmas above, and a fault that has no constructor. -/
theorem everyAdmittedEventHasANextState : Obligations.EveryAdmittedEventHasANextState := by
  unfold Obligations.EveryAdmittedEventHasANextState
  exact ⟨fun _ _ _ _ h => exec_completes h, fun _ _ h => decode_eq_error h, fun _ r => nomatch r⟩

end Sys2Proof.Machine
end

section
/-! What the device sees of the shared record (R92): two states that agree but for the record outside the level fields and for what the agent
has seen run in step, operation by operation. -/

namespace Sys2Proof.Machine

/-- The state with another record and other loads remembered by the agent. -/
def State.withRecord (s : State) (m : Memory) (seen : List (ShmField × Word)) : State := { s with shm := m, extSeen := seen }

/-- Two states that differ at most in the bytes of the record outside the level fields and in what the agent has seen. -/
structure SameToDevice (s t : State) : Prop where
  rest : t = s.withRecord t.shm t.extSeen
  levels : ∀ a, 24 ≤ a → a < 32 → Memory.get t.shm a = Memory.get s.shm a

/-- Two outcomes that differ at most in that. -/
inductive SameOutcome : Host.Outcome State Fault Refusal → Host.Outcome State Fault Refusal → Prop where
  | next {s t : State} (h : SameToDevice s t) : SameOutcome (.next s) (.next t)
  | refused (r : Refusal) : SameOutcome (.refused r) (.refused r)

namespace SameToDevice

/-! What two such states have in common. -/

theorem regs_eq {s t : State} (h : SameToDevice s t) : t.regs = s.regs := by rw [h.rest]; rfl
theorem params_eq {s t : State} (h : SameToDevice s t) : t.params = s.params := by rw [h.rest]; rfl
theorem bridgeValid_eq {s t : State} (h : SameToDevice s t) : t.bridgeValid = s.bridgeValid := by rw [h.rest]; rfl
theorem inited_eq {s t : State} (h : SameToDevice s t) : t.inited = s.inited := by rw [h.rest]; rfl
theorem bursts_eq {s t : State} (h : SameToDevice s t) : t.bursts = s.bursts := by rw [h.rest]; rfl
theorem orders_eq {s t : State} (h : SameToDevice s t) : t.orders = s.orders := by rw [h.rest]; rfl
theorem pullOrders_eq {s t : State} (h : SameToDevice s t) : t.pullOrders = s.pullOrders := by rw [h.rest]; rfl
theorem diag_eq {s t : State} (h : SameToDevice s t) : t.diag = s.diag := by rw [h.rest]; rfl
theorem result_eq {s t : State} (h : SameToDevice s t) : t.result = s.result := by rw [h.rest]; rfl

/-- A level field stands in bytes 24 to 31 and reads the same (R76). -/
theorem shmRead_level_eq {s t : State} (h : SameToDevice s t) (r : Fin 2) : t.shmRead (.level r) = s.shmRead (.level r) := by
  have hbyte (k : Nat) (hk : k < 4) : Memory.get t.shm (4 * (6 + r.val) + k) = Memory.get s.shm (4 * (6 + r.val) + k) :=
    h.levels _ (by omega) (by omega)
  have h0 := hbyte 0 (by omega)
  have h1 := hbyte 1 (by omega)
  have h2 := hbyte 2 (by omega)
  have h3 := hbyte 3 (by omega)
  rw [Nat.add_zero] at h0
  unfold State.shmRead Memory.readWord
  rw [h.params_eq]
  simp only [ShmField.addr, ShmField.index, h0, h1, h2, h3]

/-! What keeps the relation. -/

/-- States made by one update `u` that does not look at the record, the record then anything with the same level bytes. -/
theorem of_update {s t s' t' : State} (h : SameToDevice s t) (u : State → State)
    (hu : ∀ (x : State) m seen, u (x.withRecord m seen) = (u x).withRecord m seen)
    (hs : s' = (u s).withRecord s'.shm s'.extSeen) (ht : t' = (u t).withRecord t'.shm t'.extSeen)
    (hlevels : ∀ a, 24 ≤ a → a < 32 → Memory.get t'.shm a = Memory.get s'.shm a) : SameToDevice s' t' := by
  refine ⟨?_, hlevels⟩
  calc t' = (u t).withRecord t'.shm t'.extSeen := ht
    _ = (u (s.withRecord t.shm t.extSeen)).withRecord t'.shm t'.extSeen := by rw [← h.rest]
    _ = (u s).withRecord t'.shm t'.extSeen := by rw [hu]; rfl
    _ = s'.withRecord t'.shm t'.extSeen := by rw [hs]; rfl

/-- An update that neither looks at the record nor changes it. -/
theorem update {s t : State} (h : SameToDevice s t) (u : State → State)
    (hu : ∀ (x : State) m seen, u (x.withRecord m seen) = (u x).withRecord m seen) : SameToDevice (u s) (u t) := by
  have hframe (x : State) : u x = (u x).withRecord x.shm x.extSeen := hu x x.shm x.extSeen
  have hshm (x : State) : (u x).shm = x.shm := by rw [hframe]; rfl
  have hseen (x : State) : (u x).extSeen = x.extSeen := by rw [hframe]; rfl
  refine h.of_update u hu ?_ ?_ ?_
  · rw [hshm, hseen]; exact hframe s
  · rw [hshm, hseen]; exact hframe t
  · rw [hshm, hshm]; exact h.levels

theorem deliver {s t : State} (h : SameToDevice s t) (r : Result) : SameToDevice (s.deliver r) (t.deliver r) :=
  h.update (·.deliver r) fun _ _ _ => rfl

theorem emit {s t : State} (h : SameToDevice s t) (r : Diag) : SameToDevice (s.emit r) (t.emit r) :=
  h.update (·.emit r) fun _ _ _ => rfl

/-- An update of the register file by itself. -/
theorem mapRegs {s t : State} (h : SameToDevice s t) (g : RegFile → RegFile) :
    SameToDevice (s.withRegs (g s.regs)) (t.withRegs (g t.regs)) :=
  h.update (fun x => x.withRegs (g x.regs)) fun _ _ _ => rfl

theorem derive {s t : State} (h : SameToDevice s t) : SameToDevice s.derive t.derive :=
  h.update State.derive fun _ _ _ => rfl

/-- A turn of the agent stores the same words in both records (R92). -/
theorem extTurn {s t : State} (h : SameToDevice s t) : SameToDevice s.extTurn t.extTurn :=
  h.of_update (fun x => { x with bursts := x.bursts.tail }) (fun _ _ _ => rfl) (extTurn_frame s) (extTurn_frame t)
    fun a hle hlt => get_extTurn_congr h.params_eq h.bursts_eq a (h.levels a hle hlt)

/-- A store of the device stores the same word in both records; a byte outside it is kept. -/
theorem shmWrite {s t : State} (h : SameToDevice s t) (f : ShmField) (v : Word) : SameToDevice (s.shmWrite f v) (t.shmWrite f v) :=
  h.of_update id (fun _ _ _ => rfl) rfl rfl fun a hle hlt =>
    get_foldl_extAccess_congr [.store f v] h.params_eq a (h.levels a hle hlt)

theorem foldl {α : Type} {g : State → α → State}
    (hg : ∀ {s t : State}, SameToDevice s t → ∀ x, SameToDevice (g s x) (g t x)) (l : List α) {s t : State}
    (h : SameToDevice s t) : SameToDevice (l.foldl g s) (l.foldl g t) := by
  induction l generalizing s t with
  | nil => exact h
  | cons x rest ih => exact ih (hg h x)

/-! The two transfers. -/

theorem pushField {s t : State} (h : SameToDevice s t) (f : ShmField) :
    SameToDevice (Machine.pushField s f) (Machine.pushField t f) := by
  simp only [Machine.pushField, h.extTurn.regs_eq]
  exact h.extTurn.shmWrite f _

theorem push {s t : State} (h : SameToDevice s t) : SameToDevice s.push t.push := by
  cases hv : s.bridgeValid
  · rw [(push_effect s).skipped hv, (push_effect t).skipped (h.bridgeValid_eq.trans hv)]
    exact h.emit (.bridgeSkipped .push)
  · have horder : nextOrder t = nextOrder s := by unfold nextOrder; rw [h.orders_eq]
    rw [push_of_valid hv, push_of_valid (h.bridgeValid_eq.trans hv), horder]
    exact foldl pushField _ (h.update (fun x => { x with orders := x.orders.tail }) fun _ _ _ => rfl)

/-- A pull looks at the record in a level field alone (R163). -/
theorem pullPin {s t : State} (h : SameToDevice s t) (p : Pin) : SameToDevice (Machine.pullPin s p) (Machine.pullPin t p) := by
  simp only [Machine.pullPin, h.regs_eq, h.extTurn.shmRead_level_eq]
  split
  case isTrue => exact h.extTurn.update (·.setLevel p _) fun _ _ _ => rfl
  case isFalse => exact h

theorem pull {s t : State} (h : SameToDevice s t) : SameToDevice s.pull t.pull := by
  cases hv : s.bridgeValid
  · rw [(pull_effect s).skipped hv, (pull_effect t).skipped (h.bridgeValid_eq.trans hv)]
    exact h.emit (.bridgeSkipped .pull)
  · have horder : pullOrder t = pullOrder s := by unfold pullOrder; rw [h.pullOrders_eq]
    rw [State.pull, State.pull, if_pos hv, if_pos (h.bridgeValid_eq.trans hv), horder]
    exact foldl pullPin _ (h.update (fun x => { x with pullOrders := x.pullOrders.tail }) fun _ _ _ => rfl)

/-! The four shared operations of the bus. -/

theorem readReg {s t : State} (h : SameToDevice s t) (reg : Reg) (width : Nat) :
    SameToDevice (Machine.readReg reg width s) (Machine.readReg reg width t) :=
  h.pull.update (fun x => x.deliver (.busData (zext (x.regs.read reg)))) fun _ _ _ => rfl

theorem readBad {s t : State} (h : SameToDevice s t) (offset width : Nat) :
    SameToDevice (Machine.readBad offset width s) (Machine.readBad offset width t) :=
  (h.pull.emit _).deliver _

theorem countWrite {s t : State} (h : SameToDevice s t) : SameToDevice s.countWrite t.countWrite :=
  h.mapRegs fun f => { f with wcount := f.wcount + 1 }

theorem writeReg {s t : State} (h : SameToDevice s t) (reg : Reg) (width value : Nat) :
    SameToDevice (Machine.writeReg reg width value s) (Machine.writeReg reg width value t) :=
  (h.countWrite.mapRegs fun f => f.write reg (trunc32 value)).derive.push.deliver .nothing

theorem writeBad {s t : State} (h : SameToDevice s t) (offset width value : Nat) :
    SameToDevice (Machine.writeBad offset width value s) (Machine.writeBad offset width value t) := by
  have hcounted := h.countWrite.emit (.badOffsetWrite offset (trunc32 value))
  unfold Machine.writeBad
  rw [h.params_eq]
  split
  case isTrue => exact hcounted.derive.push.deliver .nothing
  case isFalse => exact hcounted.deliver .nothing

/-! The other operations, and every operation. -/

theorem exec_line {s t : State} (h : SameToDevice s t) (p : Pin) (level : Bool) :
    SameOutcome (exec (.line p level) s) (exec (.line p level) t) := by
  by_cases hcode : fnCode s.regs.fsel p = 0
  case pos =>
    rw [exec_line_of_input hcode, exec_line_of_input (h.regs_eq ▸ hcode)]
    exact .next ((h.mapRegs fun f => { f with level := Bank.setBit f.level p level }).deliver .nothing)
  case neg =>
    rw [exec_line_of_not_input hcode, exec_line_of_not_input (h.regs_eq ▸ hcode)]
    exact .next (h.deliver .nothing)

/-- The attach of a created segment stores the same words in both records (R301). -/
theorem initState {s t : State} (h : SameToDevice s t) (attach : Attach) :
    SameToDevice (Machine.initState attach s) (Machine.initState attach t) := by
  cases attach with
  | found => exact h.update (Machine.initState .found) fun _ _ _ => rfl
  | failed => exact h.update (Machine.initState .failed) fun _ _ _ => rfl
  | created contents =>
    refine h.of_update (Machine.initState .found) (fun _ _ _ => rfl) rfl rfl fun a _ _ => ?_
    change Memory.get (memoryOf t.params.shmEndian contents) a = Memory.get (memoryOf s.params.shmEndian contents) a
    rw [h.params_eq]

theorem exec_init {s t : State} (h : SameToDevice s t) (attach : Attach) :
    SameOutcome (exec (.init attach) s) (exec (.init attach) t) := by
  cases hi : s.inited
  · rw [exec_init_of_not_inited hi, exec_init_of_not_inited (h.inited_eq.trans hi)]
    exact .next (h.initState attach)
  · rw [exec_init_of_inited hi, exec_init_of_inited (h.inited_eq.trans hi)]
    exact .refused .secondInit

/-- Every operation keeps the relation: the rows of the bus by their shared operation, the others by their own (R92). -/
theorem exec {s t : State} (h : SameToDevice s t) (i : Instr) : SameOutcome (Machine.exec i s) (Machine.exec i t) := by
  cases i with
  | line p level => exact h.exec_line p level
  | reset => exact .next ((h.mapRegs fun _ => .zero).deliver .nothing)
  | init attach => exact h.exec_init attach
  | snapsave => exact .next (h.update (fun x => x.deliver (.snapshot (snapOf x.regs))) fun _ _ _ => rfl)
  | snapload fields => exact .next ((h.mapRegs (loadSnap · fields)).deliver .nothing)
  | fn p => exact .next (h.update (fun x => x.deliver (.code (fnCode x.regs.fsel p))) fun _ _ _ => rfl)
  | derive => exact .next h.derive
  | push => exact .next h.push
  | pull => exact .next h.pull
  | _ => -- a row of the bus is one of the four shared operations
    first
      | exact .next (h.readReg _ _)
      | exact .next (h.readBad _ _)
      | exact .next (h.writeReg _ _ _)
      | exact .next (h.writeBad _ _ _)

end SameToDevice

/-- Settles O58: the two states are the same to the device, and so are those the operation leaves. -/
theorem deviceSeesOnlyTheLevelFields : Obligations.DeviceSeesOnlyTheLevelFields := by
  unfold Obligations.DeviceSeesOnlyTheLevelFields
  intro i s m hm t hexec
  have hstart : SameToDevice s { s with shm := m } := ⟨rfl, hm⟩
  have hend := hstart.exec i
  rw [hexec] at hend
  generalize exec i { s with shm := m } = outcome at hend
  cases hend with
  | next h => exact ⟨_, rfl, h.regs_eq, h.result_eq, h.diag_eq, h.levels⟩

end Sys2Proof.Machine
end
